-- ==== Sys2Proof/Word.lean ====
section
/-! DEFINITION. The bit-vector types of the block (spec/00_scope.md R10, R12): every value is unsigned and bit 0 is the
least significant bit. -/

namespace Sys2Proof

/-- The 8-bit values of the spec: payload bytes, the declared length, the event kind. -/
abbrev Byte := BitVec 8

/-- The 32-bit values of the spec: the identifier and the CRC (R10). -/
abbrev Word := BitVec 32

/-- An event word, 80 bits, EVW-1 (R53). -/
abbrev EventWord := BitVec 80

/-- An encoded record, 16 bytes; byte `k` is bits `[8k+7:8k]` (R10, R40). -/
abbrev Record := BitVec 128

/-- The 5-bit diagnostic vector `diag[4:0]` of one step (R96). -/
abbrev DiagVec := BitVec 5

end Sys2Proof
end

