-- ==== Sys2Proof/Syntax.lean ====
section
/-! DEFINITION. The instruction set: the field-event kinds the block accepts (spec/00_scope.md R2, spec/30_encoding.md R54),
with the operands R63 gives each. -/

namespace Sys2Proof

/-- One accepted field event. One constructor per mnemonic of spec/opcode_table.json; the table's sixteen rows split DATA
(count 0 to 7; 8), DATA_RSV (9; 10 to 11; 12 to 15) and IGNORED (seven kind ranges) because a row is one mask
(notes/assumptions/9.md). -/
inductive Instr where
  /-- IDENT (R55, R69). -/
  | ident (identifier : Word) (isExtended isRemote : Bool)
  /-- CONTROL (R56, R71). -/
  | control (declaredLength : Byte)
  /-- DATA (R58, R73); its count is the length of the list. -/
  | data (bytes : List Byte)
  /-- DATA_RSV, DATA with a reserved count (R61, R75). -/
  | dataRsv (count : BitVec 4)
  /-- CRC (R57, R76). -/
  | crc (crc : Word)
  /-- ACK (R59, R78). -/
  | ack
  /-- IGNORED, any other kind (R60, R80). -/
  | ignored (kind : Byte)
deriving DecidableEq, Repr

end Sys2Proof
end

