-- ==== Sys2Proof/WellFormed.lean ====
section
/-! DEFINITION. Which instructions the 80-bit encoding can carry: the operand ranges of spec/30_encoding.md R54, R58, R61. -/

namespace Sys2Proof

/-- DATA carries at most 8 bytes (R58), DATA_RSV a count from 9 to 15 (R61), IGNORED a kind that is `0x00` or `0x06` to
`0xFF` (R60). Every other operand takes every value of its width. -/
def Instr.wellFormed : Instr → Bool
  | .ident _ _ _ => true
  | .control _ => true
  | .data bytes => decide (bytes.length ≤ 8)
  | .dataRsv count => decide (9 ≤ count.toNat)
  | .crc _ => true
  | .ack => true
  | .ignored kind => decide (kind = 0x00) || decide (0x06 ≤ kind.toNat)

/-- The instruction is one the encoding can carry. -/
abbrev Instr.WellFormed (i : Instr) : Prop := i.wellFormed = true

end Sys2Proof
end

