-- ==== Sys2Proof/Decode.lean ====
section
/-! DEFINITION. The event word EVW-1 (spec/30_encoding.md R53 to R63): the fields of a word, the decoder, the encoder and the
opcode table's rows. The decoder is total on all 2^80 words, so it rejects none (R63). -/

namespace Sys2Proof

/-! ## The fields of an event word -/

/-- The kind, `w[7:0]` (R53). -/
def wordKind (w : EventWord) : Byte := w.extractLsb' 0 8

/-- IDENT's identifier, `w[39:8]` (R55). -/
def wordIdentifier (w : EventWord) : Word := w.extractLsb' 8 32

/-- IDENT's `is_extended`, `w[40]` (R55). -/
def wordExtended (w : EventWord) : Bool := w.getLsbD 40

/-- IDENT's `is_remote`, `w[41]` (R55). -/
def wordRemote (w : EventWord) : Bool := w.getLsbD 41

/-- CONTROL's `declared_length`, `w[15:8]` (R56). -/
def wordLength (w : EventWord) : Byte := w.extractLsb' 8 8

/-- DATA's count, `w[11:8]` (R58). -/
def wordCount (w : EventWord) : BitVec 4 := w.extractLsb' 8 4

/-- DATA's byte lane `j`, `w[16+8j+7:16+8j]` (R58). -/
def wordLane (w : EventWord) (j : Nat) : Byte := w.extractLsb' (16 + 8 * j) 8

/-- Lanes `0` to `count-1` in increasing order (R58, R64). -/
def wordLanes (w : EventWord) (count : Nat) : List Byte := (List.range count).map (wordLane w)

/-- CRC's `crc`, `w[39:8]` (R57). -/
def wordCrc (w : EventWord) : Word := w.extractLsb' 8 32

/-! ## The decoder -/

/-- The kind `0x03` word: DATA when the count is 0 to 8, DATA_RSV when it is 9 to 15 (R58, R61). -/
def decodeData (w : EventWord) : Instr :=
  if (wordCount w).toNat ≤ 8 then .data (wordLanes w (wordCount w).toNat) else .dataRsv (wordCount w)

/-- The decoder of R63. -/
def decode (w : EventWord) : Instr :=
  if wordKind w = 0x01 then .ident (wordIdentifier w) (wordExtended w) (wordRemote w)
  else if wordKind w = 0x02 then .control (wordLength w)
  else if wordKind w = 0x03 then decodeData w
  else if wordKind w = 0x04 then .crc (wordCrc w)
  else if wordKind w = 0x05 then .ack
  else .ignored (wordKind w)

/-! ## The encoder -/

/-- Eight lanes, lane 0 lowest; a lane the list does not fill is 0, as R62 recommends. -/
def packLanes (bytes : List Byte) : BitVec 64 :=
  bytes.getD 7 0 ++ bytes.getD 6 0 ++ bytes.getD 5 0 ++ bytes.getD 4 0 ++
  bytes.getD 3 0 ++ bytes.getD 2 0 ++ bytes.getD 1 0 ++ bytes.getD 0 0

/-- The word of an instruction, ignored bits 0 (R54 to R62, R65). -/
def encode : Instr → EventWord
  | .ident identifier isExtended isRemote =>
      (0 : BitVec 38) ++ BitVec.ofBool isRemote ++ BitVec.ofBool isExtended ++ identifier ++ (0x01 : Byte)
  | .control declaredLength => (0 : BitVec 64) ++ declaredLength ++ (0x02 : Byte)
  | .data bytes => packLanes bytes ++ (0 : BitVec 4) ++ BitVec.ofNat 4 bytes.length ++ (0x03 : Byte)
  | .dataRsv count => (0 : BitVec 68) ++ count ++ (0x03 : Byte)
  | .crc crc => (0 : BitVec 40) ++ crc ++ (0x04 : Byte)
  | .ack => (0 : BitVec 72) ++ (0x05 : Byte)
  | .ignored kind => (0 : BitVec 72) ++ kind

/-! ## Ignored bits -/

/-- The bits the format of a word names, a 1 for each (R55 to R61); every other bit is ignored (R62): IDENT `[79:42]`, CONTROL
`[79:16]`, DATA `[15:12]` and lanes `count..7`, DATA_RSV `[79:12]`, CRC `[79:40]`, ACK and IGNORED `[79:8]`. -/
def namedBits (w : EventWord) : EventWord :=
  if wordKind w = 0x01 then 0x3FFFFFFFFFF
  else if wordKind w = 0x02 then 0xFFFF
  else if wordKind w = 0x03 then
    if (wordCount w).toNat ≤ 8 then BitVec.ofNat 80 ((2 ^ (8 * (wordCount w).toNat) - 1) * 2 ^ 16) ||| 0xFFF else 0xFFF
  else if wordKind w = 0x04 then 0xFFFFFFFFFF
  else 0xFF

/-! ## The opcode table -/

/-- The mnemonic spec/opcode_table.json gives an instruction. -/
def Instr.mnemonic : Instr → String
  | .ident _ _ _ => "IDENT"
  | .control _ => "CONTROL"
  | .data _ => "DATA"
  | .dataRsv _ => "DATA_RSV"
  | .crc _ => "CRC"
  | .ack => "ACK"
  | .ignored _ => "IGNORED"

/-- One row of spec/opcode_table.json: a word is of the row when its bits under `mask` are `pattern`. -/
structure OpcodeRow where
  mnemonic : String
  pattern : EventWord
  mask : EventWord
deriving DecidableEq, Repr

/-- The sixteen rows of spec/opcode_table.json, in the table's order. -/
def opcodeRows : List OpcodeRow :=
  [ ⟨"IDENT", 0x01, 0xFF⟩,
    ⟨"CONTROL", 0x02, 0xFF⟩,
    ⟨"DATA", 0x03, 0x8FF⟩,
    ⟨"DATA", 0x803, 0xFFF⟩,
    ⟨"DATA_RSV", 0x903, 0xFFF⟩,
    ⟨"DATA_RSV", 0xA03, 0xEFF⟩,
    ⟨"DATA_RSV", 0xC03, 0xCFF⟩,
    ⟨"CRC", 0x04, 0xFF⟩,
    ⟨"ACK", 0x05, 0xFF⟩,
    ⟨"IGNORED", 0x00, 0xFF⟩,
    ⟨"IGNORED", 0x06, 0xFE⟩,
    ⟨"IGNORED", 0x08, 0xF8⟩,
    ⟨"IGNORED", 0x10, 0xF0⟩,
    ⟨"IGNORED", 0x20, 0xE0⟩,
    ⟨"IGNORED", 0x40, 0xC0⟩,
    ⟨"IGNORED", 0x80, 0x80⟩ ]

/-- The word is of the row. -/
def OpcodeRow.matchesWord (r : OpcodeRow) (w : EventWord) : Bool := w &&& r.mask == r.pattern

/-! ## The host's reading of a table word -/

/-- The event word whose low `nbits` bits are those of `w` and whose other bits are 0. -/
def tableWord (nbits w : Nat) : EventWord := BitVec.ofNat 80 (w % 2 ^ nbits)

/-- What the decoder reads from an instruction whose bits are `w`. Every event word is one 80-bit word (R67), so more than
80 bits are no instruction (notes/assumptions/15.md). -/
def decodeTableWord (nbits w : Nat) : Option Instr :=
  if nbits ≤ 80 then some (decode (tableWord nbits w)) else none

end Sys2Proof
end

