-- ==== Sys2Proof/Config.lean ====
section
/-! DEFINITION. What an implementation fixes (the elaboration-time parameters of spec/00_scope.md R9) and the free values:
what the outside drives where nothing says what it drives (R11, D29), and the buffer bytes no rule gives (R32, U1). -/

namespace Sys2Proof

/-- A size parameter that is a number or the source's `inf` (R9: `PAYLOAD_CAP`, `LEN_W`). -/
inductive Bound where
  | finite (n : Nat)
  | inf
deriving DecidableEq, Repr

/-- `ID_HIGH_BITS` (R9): what IDENT does with bits 31 and 30 of its identifier operand. -/
inductive IdHighBits where
  | keep
  | clear
deriving DecidableEq, Repr

/-- The block's elaboration-time parameters (R9). A model takes each as an argument: here they are a field of the state that
no step writes (notes/assumptions/4.md). -/
structure Params where
  /-- `PAYLOAD_CAP`: payload bytes the accumulator retains. -/
  payloadCap : Bound
  /-- `LEN_W`: width of the saturating payload-length counter. -/
  lenW : Bound
  /-- `CNT_W`: width of each of the four wrapping counters. -/
  cntW : Nat
  /-- `ID_HIGH_BITS`. -/
  idHighBits : IdHighBits
deriving DecidableEq, Repr

/-- This hardware's parameters (R9, D8, D9, D10, D20). -/
def Config.thisHardware : Params :=
  { payloadCap := .finite 8, lenW := .finite 16, cntW := 32, idHighBits := .keep }

/-- FREE VALUE (log 2): `rst` in the `n`-th step whose inputs nothing lists. -/
opaque Config.freeRst : Nat → Bool
/-- FREE VALUE (log 2): `ev_valid` in the `n`-th step whose inputs nothing lists. -/
opaque Config.freeEvValid : Nat → Bool
/-- FREE VALUE (log 2): `ev_word` in the `n`-th step whose inputs nothing lists. -/
opaque Config.freeEvWord : Nat → EventWord
/-- FREE VALUE (log 2): `out_ready` in the `n`-th step whose inputs nothing lists. -/
opaque Config.freeOutReady : Nat → Bool
/-- FREE VALUE (log 2): whether `sink_status` is ERR in the `n`-th step whose inputs nothing lists. -/
opaque Config.freeSinkErr : Nat → Bool

/-- FREE VALUE (log 5): the stale buffer byte at position `i` (R32, U1). Only a frame whose payload is shorter than its
length says reads one, and no reachable frame is (R34(a), R83). -/
opaque Config.staleByte : Nat → Byte

end Sys2Proof
end

