-- ==== Sys2Proof/Machine/State.lean ====
section
/-! DEFINITION. The machine's state as plain data: every field of spec/10_state.md R17, the step's diagnostic vector (R96),
the elaboration-time parameters (R9) and what the outside drives on the input ports (R51). -/

namespace Sys2Proof.Machine

/-- The phase (R24): IDLE, an event can be accepted; SEND, a record waits for the sink. -/
inductive Phase where
  | idle
  | send
deriving DecidableEq, Repr

/-- What the sink answers when it takes a record: `sink_status`, 0 = OK, 1 = ERR (R51, R87). -/
inductive SinkStatus where
  | ok
  | err
deriving DecidableEq, Repr

/-- A snapshot of the accumulator (R16, R78), and the side-band frame `out_frame` (R90). `payload` holds the valid bytes only:
those at or past `payload_valid` are unspecified (R90, U12) and are not held. -/
structure CanFrame where
  identifier : Word
  declaredLength : Byte
  crc : Word
  payloadLen : Nat
  payload : List Byte
deriving DecidableEq, Repr

/-- What the outside drives on the input ports in one step (R51). -/
structure Inputs where
  rst : Bool
  evValid : Bool
  evWord : EventWord
  outReady : Bool
  sinkStatus : SinkStatus
deriving DecidableEq, Repr

/-- The state of the block (R17), with the fields of the model's own at the end. -/
structure State where
  /-- 32 bits; bit 31 is the extended flag, bit 30 the remote flag (R18). -/
  identifier : Word
  /-- 8 bits, stored verbatim (R19). -/
  declaredLength : Byte
  /-- `payload_view`, the retained bytes of the buffer, position 0 first (R20, R32, R37). -/
  payload : List Byte
  /-- `payload_len`, a saturating `LEN_W`-bit counter (R21). -/
  payloadLen : Nat
  /-- 32 bits, stored verbatim (R22). -/
  crc : Word
  /-- Whether an IDENT has been accepted since reset (R23). -/
  idSeen : Bool
  /-- IDLE or SEND (R24). -/
  phase : Phase
  /-- The record latch (R25). -/
  outRec : Record
  /-- The side-band latch (R25, R90). -/
  outFrame : CanFrame
  /-- ACKs accepted, a wrapping `CNT_W`-bit counter (R26). -/
  framesEmitted : Nat
  /-- Events with a MalformedFieldEvent diagnostic, a wrapping `CNT_W`-bit counter (R27). -/
  malformedCount : Nat
  /-- ACKs with a PayloadOverflow diagnostic, a wrapping `CNT_W`-bit counter (R27). -/
  overflowCount : Nat
  /-- Completions with status ERR, a wrapping `CNT_W`-bit counter (R27). -/
  txErrCount : Nat
  /-- The diagnostic vector the last step drove (R96, R121). -/
  diag : DiagVec
  /-- The elaboration-time parameters, which no step writes (R9, R30). -/
  params : Params
  /-- THE MODEL'S OWN: what the outside drives on the input ports in the coming steps, the next step first (log 1). -/
  inputs : List Inputs
  /-- THE MODEL'S OWN: how many steps have taken free input values (log 2). -/
  draws : Nat
deriving DecidableEq, Repr

/-- The reasons the machine could stop: there are none. The block has no trap, exception, abort or fault mechanism (R95), so
no constructor stands here and no step can raise one (log 12). -/
inductive Fault where
deriving DecidableEq, Repr

/-- The reasons the model could give an instruction no meaning. -/
inductive Refusal where
  /-- Raised by an arm of `exec` whose instruction has no meaning yet; no arm of this model raises it. Safe: it only makes
  claims unprovable. -/
  | notModelled (mnemonic : String)
deriving DecidableEq, Repr

/-- The machine right after Reset (R33, R111), with this hardware's parameters (R9) and nothing presented. R33 leaves
`out_rec` and `out_frame` unspecified after Reset: the zeros here are a DESIGN CHOICE (log 6), unsafe. `inputs` and `draws` are the
model's own, DESIGN CHOICE (log 1, log 2). -/
def State.reset : State :=
  { identifier := 0x00000000
    declaredLength := 0x00
    payload := []
    payloadLen := 0
    crc := 0x00000000
    idSeen := false
    phase := .idle
    outRec := 0
    outFrame := { identifier := 0, declaredLength := 0, crc := 0, payloadLen := 0, payload := [] }
    framesEmitted := 0
    malformedCount := 0
    overflowCount := 0
    txErrCount := 0
    diag := 0
    params := Config.thisHardware
    inputs := []
    draws := 0 }

end Sys2Proof.Machine
end

