-- ==== Sys2Proof/Machine/Operands.lean ====
section
/-! DEFINITION. Operand assembly and the arithmetic of the counters: the identifier with its flags (spec/40_reassembler.md
R69, R70), saturating and wrapping addition (spec/00_scope.md R13), the capped append (spec/20_memory.md R38). -/

namespace Sys2Proof.Machine

/-- `min(n, b)`, where `inf` bounds nothing. -/
def clip (b : Bound) (n : Nat) : Nat :=
  match b with
  | .finite m => min n m
  | .inf => n

/-- `take(b, bytes)`, where `inf` takes all (R38). -/
def takeBound (b : Bound) (bytes : List Byte) : List Byte :=
  match b with
  | .finite m => bytes.take m
  | .inf => bytes

/-- The largest value a counter of the width holds: `2^width - 1`, none for `inf` (R21). -/
def maxOfWidth (width : Bound) : Bound :=
  match width with
  | .finite w => .finite (2 ^ w - 1)
  | .inf => .inf

/-- `sat_add_W(a, b)` (R13). -/
def satAdd (width : Bound) (a b : Nat) : Nat := clip (maxOfWidth width) (a + b)

/-- `wrap_add_W(a, b)` (R13). -/
def wrapAdd (width a b : Nat) : Nat := (a + b) % 2 ^ width

/-- `n` is at most the bound. -/
def withinBound (b : Bound) (n : Nat) : Bool :=
  match b with
  | .finite m => decide (n ≤ m)
  | .inf => true

/-- The legal values of the parameters (R9): `PAYLOAD_CAP >= 8`, `LEN_W >= 4` and `2^LEN_W - 1 >= PAYLOAD_CAP`, `CNT_W >= 1`.
An unbounded `PAYLOAD_CAP` needs an unbounded `LEN_W` (log 11). -/
def legalParams (p : Params) : Bool :=
  withinBound p.payloadCap 8 && withinBound p.lenW 4 && decide (1 ≤ p.cntW) &&
  (match p.payloadCap with
   | .finite c => withinBound (maxOfWidth p.lenW) c
   | .inf => decide (p.lenW = .inf))

/-- The extended flag, `identifier[31]` (R18, R29). -/
def extendedFlag : Word := 0x80000000

/-- The remote flag, `identifier[30]` (R18, R29). -/
def remoteFlag : Word := 0x40000000

/-- IDENT's operand before the flags are ORed in: as given with `KEEP`, bits 31 and 30 cleared with `CLEAR` (R70(b)). -/
def identifierOperand (mode : IdHighBits) (identifier : Word) : Word :=
  match mode with
  | .keep => identifier
  | .clear => identifier &&& 0x3FFFFFFF

/-- The identifier IDENT writes: operand, extended flag and remote flag ORed together (R64, R69, R70). -/
def assembleIdentifier (mode : IdHighBits) (identifier : Word) (isExtended isRemote : Bool) : Word :=
  identifierOperand mode identifier ||| (if isExtended then extendedFlag else 0) ||| (if isRemote then remoteFlag else 0)

/-- `payload_view' = take(PAYLOAD_CAP, payload_view ++ bytes)` (R38). -/
def appendView (cap : Bound) (view bytes : List Byte) : List Byte := takeBound cap (view ++ bytes)

end Sys2Proof.Machine
end

