-- ==== Sys2Proof/Machine/Encoder.lean ====
section
/-! DEFINITION. The Frame Encoder (spec/41_encoder_output.md R81 to R85): the snapshot of the accumulator and its 16-byte
record. -/

namespace Sys2Proof.Machine

/-- `payload_valid = min(payload_len, PAYLOAD_CAP)` (R90). -/
def CanFrame.payloadValid (cap : Bound) (f : CanFrame) : Nat := clip cap f.payloadLen

/-- The length byte's value, `min(payload_len, 8)` (R81). -/
def recordLength (f : CanFrame) : Nat := min f.payloadLen 8

/-- Record byte `8 + i`: payload byte `i` below the length, else 0 (R81). A byte that the frame's length counts and its payload
does not hold is a stale buffer byte (R32): a free value. -/
def recordPayloadByte (f : CanFrame) (i : Nat) : Byte :=
  if i < recordLength f then f.payload.getD i (Config.staleByte i) else 0x00

/-- `Encode` (R81): from the top, payload bytes 7 to 0, three zero bytes, the length byte, the identifier. It never reads
`declaredLength` or `crc` (R84). -/
def encodeRecord (f : CanFrame) : Record :=
  recordPayloadByte f 7 ++ recordPayloadByte f 6 ++ recordPayloadByte f 5 ++ recordPayloadByte f 4 ++
  recordPayloadByte f 3 ++ recordPayloadByte f 2 ++ recordPayloadByte f 1 ++ recordPayloadByte f 0 ++
  (0 : BitVec 24) ++ BitVec.ofNat 8 (recordLength f) ++ f.identifier

/-- Record byte `k`, `rec[8k+7:8k]` (R40, R81). -/
def recordByte (r : Record) (k : Nat) : Byte := r.extractLsb' (8 * k) 8

/-- The CanFrame an ACK takes of the accumulator (R78, R91). -/
def snapshot (s : State) : CanFrame :=
  { identifier := s.identifier
    declaredLength := s.declaredLength
    crc := s.crc
    payloadLen := s.payloadLen
    payload := s.payload }

end Sys2Proof.Machine
end

