-- ==== Sys2Proof/Machine/Flags.lean ====
section
/-! DEFINITION. The diagnostic vector of a step: the five codes and what each event raises (spec/60_exceptions.md R96, R98). -/

namespace Sys2Proof.Machine

/-- Bit 0, MalformedFieldEvent: CONTROL's length is not 0 to 8 (R96). -/
def diagLenRange : DiagVec := 0b00001
/-- Bit 1, MalformedFieldEvent: an event before any IDENT since reset (R96, R98). -/
def diagNoId : DiagVec := 0b00010
/-- Bit 2, MalformedFieldEvent: a reserved DATA count (R96). -/
def diagBadCount : DiagVec := 0b00100
/-- Bit 3, PayloadOverflow: an ACK with more than 8 payload bytes (R96, R99). -/
def diagOverflow : DiagVec := 0b01000
/-- Bit 4, TransportError: the sink answers ERR (R96, R100). -/
def diagTxErr : DiagVec := 0b10000

/-- `raise DIAG(code)` if the condition holds (R13); the bits are independent (R102). -/
def raiseIf (condition : Bool) (code : DiagVec) : DiagVec := if condition then code else 0

/-- NO_ID: `id_seen = 0` (R98). -/
def noIdDiag (s : State) : DiagVec := raiseIf (!s.idSeen) diagNoId

/-- CONTROL's vector (R71). -/
def controlDiag (declaredLength : Byte) (s : State) : DiagVec :=
  raiseIf (decide (8 < declaredLength.toNat)) diagLenRange ||| noIdDiag s

/-- DATA_RSV's vector (R75). -/
def dataRsvDiag (s : State) : DiagVec := diagBadCount ||| noIdDiag s

/-- ACK's vector (R78). -/
def ackDiag (s : State) : DiagVec := noIdDiag s ||| raiseIf (decide (8 < s.payloadLen)) diagOverflow

/-- Complete's vector (R87). -/
def completeDiag (status : SinkStatus) : DiagVec := raiseIf (decide (status = .err)) diagTxErr

/-- A MalformedFieldEvent bit is set: `diag[2:0] != 0` (R97). -/
def isMalformed (d : DiagVec) : Bool := d.extractLsb' 0 3 != 0
/-- `diag[3] = 1` (R97). -/
def isOverflow (d : DiagVec) : Bool := d.getLsbD 3
/-- `diag[4] = 1` (R97). -/
def isTxErr (d : DiagVec) : Bool := d.getLsbD 4

end Sys2Proof.Machine
end

