-- ==== Sys2Proof/Machine/Ops.lean ====
section
/-! DEFINITION. The named operations on the state: the accumulator's writes, reporting an error (the block's only
"exception", spec/60_exceptions.md R95 to R97), emitting a record, the handshakes, completion, reset, and reading the input
ports. -/

namespace Sys2Proof.Machine

/-! ## The accumulator -/

/-- IDENT's writes (R69): the payload becomes empty, the identifier is set, `id_seen` is set. -/
def State.newFrame (identifier : Word) (s : State) : State :=
  { s with payload := [], payloadLen := 0, identifier := identifier, idSeen := true }

/-- CONTROL's write (R71). -/
def State.setDeclaredLength (declaredLength : Byte) (s : State) : State := { s with declaredLength := declaredLength }

/-- DATA's writes (R73, R38): bytes past `PAYLOAD_CAP` are counted and not stored. -/
def State.appendBytes (bytes : List Byte) (s : State) : State :=
  { s with
    payload := appendView s.params.payloadCap s.payload bytes
    payloadLen := satAdd s.params.lenW s.payloadLen bytes.length }

/-- CRC's write (R76). -/
def State.setCrc (crc : Word) (s : State) : State := { s with crc := crc }

/-- `frames_emitted <- wrap_add(frames_emitted, 1)` (R26, R78). -/
def State.countFrame (s : State) : State := { s with framesEmitted := wrapAdd s.params.cntW s.framesEmitted 1 }

/-- `emit(Encode(frame), frame)` (R78, R86): load the output latch and enter SEND. -/
def State.emit (frame : CanFrame) (s : State) : State :=
  { s with outRec := encodeRecord frame, outFrame := frame, phase := .send }

/-! ## Reporting: the end of a step -/

/-- The end of every step (R97): drive the vector and update the three diagnostic counters once each. -/
def State.endOfStep (d : DiagVec) (s : State) : State :=
  { s with
    diag := d
    malformedCount := if isMalformed d then wrapAdd s.params.cntW s.malformedCount 1 else s.malformedCount
    overflowCount := if isOverflow d then wrapAdd s.params.cntW s.overflowCount 1 else s.overflowCount
    txErrCount := if isTxErr d then wrapAdd s.params.cntW s.txErrCount 1 else s.txErrCount }

/-- A step that only holds: an Idle step (R14), or an event presented to a block that is not ready (R52). -/
def State.hold (s : State) : State := s.endOfStep 0

/-! ## The handshakes -/

/-- `ev_ready = (phase = IDLE) and not rst` (R51). -/
def evReady (s : State) (rst : Bool) : Bool := decide (s.phase = .idle) && !rst

/-- `out_valid = (phase = SEND) and not rst` (R51). -/
def outValid (s : State) (rst : Bool) : Bool := decide (s.phase = .send) && !rst

/-- What presenting an event to the block `s` out of reset does, where accepting it gives `accepted`: in IDLE it is accepted; in
SEND the port is not ready, the event is not consumed and nothing changes because of it (R52). -/
def accept (s accepted : State) : Host.Outcome State Fault Refusal :=
  match s.phase with
  | .idle => .next accepted
  | .send => .next s.hold

/-- `Complete(status)` (R87): release the latch; an ERR is reported and the record is dropped. -/
def State.complete (status : SinkStatus) (s : State) : State :=
  State.endOfStep (completeDiag status) { s with phase := .idle }

/-- Reset (R111): every field of the block at its reset value; the parameters are fixed at elaboration, and the model's own
environment fields are not the block's. -/
def State.toReset (s : State) : State :=
  { State.reset with params := s.params, inputs := s.inputs, draws := s.draws }

/-! ## The input ports -/

/-- Input ports driven by free values (R11, R108, log 2). -/
def freeInputs (n : Nat) : Inputs :=
  { rst := Config.freeRst n
    evValid := Config.freeEvValid n
    evWord := Config.freeEvWord n
    outReady := Config.freeOutReady n
    sinkStatus := if Config.freeSinkErr n then .err else .ok }

/-- The input ports with an event presented, no reset and a sink that is not ready. -/
def presentWord (w : EventWord) : Inputs :=
  { rst := false, evValid := true, evWord := w, outReady := false, sinkStatus := .ok }

/-- What the input ports carry in the coming step: the next listed entry, or free values where none is listed. -/
def State.inputsNow (s : State) : Inputs :=
  match s.inputs with
  | now :: _ => now
  | [] => freeInputs s.draws

/-- The state once the coming step's inputs are taken. -/
def State.sampled (s : State) : State :=
  match s.inputs with
  | _ :: later => { s with inputs := later }
  | [] => { s with draws := s.draws + 1 }

/-- The four kinds of step (R14). -/
inductive StepKind where
  | accept (w : EventWord)
  | complete (status : SinkStatus)
  | reset
  | idle
deriving DecidableEq, Repr

/-- Which step fires: reset beats every handshake (R112); Accept fires on `ev_valid` and `ev_ready` (R52); Complete on
`out_valid` and `out_ready` (R87); otherwise the step is Idle (R14, R121). -/
def stepKind (s : State) (now : Inputs) : StepKind :=
  if now.rst then .reset
  else if now.evValid && evReady s now.rst then .accept now.evWord
  else if now.outReady && outValid s now.rst then .complete now.sinkStatus
  else .idle

end Sys2Proof.Machine
end

