-- ==== Sys2Proof/Machine/Reassembler.lean ====
section
/-! DEFINITION. The meaning of each event kind (spec/40_reassembler.md R69 to R80), as presented to a block out of reset: its
effect where the block is IDLE, and no effect where it is not ready (`accept`, R52). -/

namespace Sys2Proof.Machine

/-- IDENT (R69, R70): start a frame; never malformed. -/
def execIdent (identifier : Word) (isExtended isRemote : Bool) (s : State) : Host.Outcome State Fault Refusal :=
  accept s ((s.newFrame (assembleIdentifier s.params.idHighBits identifier isExtended isRemote)).endOfStep 0)

/-- CONTROL (R71, R72): store the length verbatim; LEN_RANGE and NO_ID only report. -/
def execControl (declaredLength : Byte) (s : State) : Host.Outcome State Fault Refusal :=
  accept s ((s.setDeclaredLength declaredLength).endOfStep (controlDiag declaredLength s))

/-- DATA (R73, R74): append the bytes, with or without an IDENT before them. -/
def execData (bytes : List Byte) (s : State) : Host.Outcome State Fault Refusal :=
  accept s ((s.appendBytes bytes).endOfStep (noIdDiag s))

/-- DATA_RSV (R75): nothing is appended, whatever the count; BAD_COUNT always. -/
def execDataRsv (_count : BitVec 4) (s : State) : Host.Outcome State Fault Refusal :=
  accept s (s.endOfStep (dataRsvDiag s))

/-- CRC (R76, R77): store it verbatim. -/
def execCrc (crc : Word) (s : State) : Host.Outcome State Fault Refusal :=
  accept s ((s.setCrc crc).endOfStep (noIdDiag s))

/-- ACK (R78, R79): count the frame and emit the snapshot; the accumulator is not cleared. -/
def execAck (s : State) : Host.Outcome State Fault Refusal :=
  accept s ((s.countFrame.emit (snapshot s)).endOfStep (ackDiag s))

/-- IGNORED (R80): consumed, with no effect and no diagnostic, whatever the kind. -/
def execIgnored (_kind : Byte) (s : State) : Host.Outcome State Fault Refusal :=
  accept s (s.endOfStep 0)

end Sys2Proof.Machine
end

