-- ==== Sys2Proof/Machine/Dispatch.lean ====
section
/-! DEFINITION. One arm per event kind (spec/30_encoding.md R54): what presenting it to the block out of reset does. -/

namespace Sys2Proof.Machine

def exec (i : Instr) (s : State) : Host.Outcome State Fault Refusal :=
  match i with
  | .ident identifier isExtended isRemote => Sys2Proof.Machine.execIdent identifier isExtended isRemote s
  | .control declaredLength => Sys2Proof.Machine.execControl declaredLength s
  | .data bytes => Sys2Proof.Machine.execData bytes s
  | .dataRsv count => Sys2Proof.Machine.execDataRsv count s
  | .crc crc => Sys2Proof.Machine.execCrc crc s
  | .ack => Sys2Proof.Machine.execAck s
  | .ignored kind => Sys2Proof.Machine.execIgnored kind s

end Sys2Proof.Machine
end

