-- ==== Sys2Proof/Machine/Step.lean ====
section
/-! DEFINITION. One step of the machine (spec/00_scope.md R14): Accept, Complete, Reset or Idle, as the input ports decide. -/

namespace Sys2Proof.Machine

/-- One step: take the input ports' values, and run the kind of step they fire. -/
def step (s : State) : Host.Outcome State Fault Refusal :=
  match stepKind s s.inputsNow with
  | .reset => .next s.sampled.toReset
  | .accept w => exec (decode w) s.sampled
  | .complete status => .next (s.sampled.complete status)
  | .idle => .next s.sampled.hold

/-- The block fetches from its event port (R28, R49): the table word is presented there in the next step, before whatever the
outside drives after it (log 3). -/
def State.withFetchWord (s : State) (nbits w : Nat) : State :=
  { s with inputs := presentWord (tableWord nbits w) :: s.inputs }

end Sys2Proof.Machine
end

