-- ==== Sys2Proof/Machine/Upstream.lean ====
section
/-! DEFINITION. How the upstream's field events become event words (spec/30_encoding.md R65), and what each line of the textual
syntax stands for (R68). -/

namespace Sys2Proof.Machine

/-- The source's FieldEvent (R54, R65). `other` is any other tag, sent with a kind the word format ignores. -/
inductive FieldEvent where
  | identifierField (identifier : Word) (isExtended isRemote : Bool)
  | controlField (declaredLength : Byte)
  | dataField (bytes : List Byte)
  | crcField (crc : Word)
  | ackField
  | other (kind : Byte)
deriving DecidableEq, Repr

/-- The bytes in chunks of 8, the last with the remainder (R65). No bytes are one empty chunk: R65 also allows no word at all
(log 13). -/
def dataChunks (bytes : List Byte) : List (List Byte) :=
  (List.range (max 1 ((bytes.length + 7) / 8))).map (fun k => (bytes.drop (8 * k)).take 8)

/-- The instructions the upstream sends for a FieldEvent (R65). -/
def FieldEvent.instrs : FieldEvent → List Instr
  | .identifierField identifier isExtended isRemote => [.ident identifier isExtended isRemote]
  | .controlField declaredLength => [.control declaredLength]
  | .dataField bytes => (dataChunks bytes).map Instr.data
  | .crcField crc => [.crc crc]
  | .ackField => [.ack]
  | .other kind => [.ignored kind]

/-- The event words the upstream sends for a FieldEvent (R65). -/
def FieldEvent.words (e : FieldEvent) : List EventWord := e.instrs.map encode

/-- A line of the textual syntax (R68), its numbers read. -/
inductive TextLine where
  | ident (id : Word) (ext rtr : Bool)
  | ctrl (len : Byte)
  | data (bytes : List Byte)
  | dataRsv (count : BitVec 4)
  | crc (crc : Word)
  | ack
  | nop (kind : Byte)
  | frame (id : Word) (ext rtr : Bool) (len : Byte) (bytes : List Byte) (crc : Word)
deriving DecidableEq, Repr

/-- What a line expands to (R68). -/
def TextLine.instrs : TextLine → List Instr
  | .ident id ext rtr => [.ident id ext rtr]
  | .ctrl len => [.control len]
  | .data bytes => (dataChunks bytes).map Instr.data
  | .dataRsv count => [.dataRsv count]
  | .crc value => [.crc value]
  | .ack => [.ack]
  | .nop kind => [.ignored kind]
  | .frame id ext rtr len bytes value =>
      [.ident id ext rtr, .control len] ++ (if bytes.isEmpty then [] else (dataChunks bytes).map Instr.data) ++
      [.crc value, .ack]

/-- A number of the textual syntax, in decimal (R68). -/
def textNumber {width : Nat} (v : BitVec width) : String := toString v.toNat

/-- A byte list of the textual syntax (R68). -/
def textBytes (bytes : List Byte) : String := "[" ++ String.intercalate ", " (bytes.map textNumber) ++ "]"

/-- IDENT's optional flags in the textual syntax (R68). -/
def textFlags (ext rtr : Bool) : String := (if ext then " ext" else "") ++ (if rtr then " rtr" else "")

/-- A line as text, numbers in decimal (R68, log 19). -/
def TextLine.text : TextLine → String
  | .ident id ext rtr => "IDENT id=" ++ textNumber id ++ textFlags ext rtr
  | .ctrl len => "CTRL len=" ++ textNumber len
  | .data bytes => "DATA " ++ textBytes bytes
  | .dataRsv count => "DATA_RSV count=" ++ textNumber count
  | .crc value => "CRC crc=" ++ textNumber value
  | .ack => "ACK"
  | .nop kind => "NOP kind=" ++ textNumber kind
  | .frame id ext rtr len bytes value =>
      "FRAME id=" ++ textNumber id ++ textFlags ext rtr ++ " len=" ++ textNumber len ++
      " data=" ++ textBytes bytes ++ " crc=" ++ textNumber value

/-- The words a line encodes as (R68). -/
def TextLine.words (l : TextLine) : List EventWord := l.instrs.map encode

end Sys2Proof.Machine
end

