-- ==== Sys2Proof/Machine/Ports.lean ====
section
/-! DEFINITION. What the outside sees: the output ports (spec/30_encoding.md R51, spec/41_encoder_output.md R90), the sink
transfers and the observation of a run (spec/00_scope.md R15). -/

namespace Sys2Proof.Machine

/-- The side-band frame as the port presents it (R90): the latch's fields and `payload_valid`; `payload` is the valid bytes. -/
structure SideBand where
  identifier : Word
  declaredLength : Byte
  crc : Word
  payloadLen : Nat
  payloadValid : Nat
  payload : List Byte
deriving DecidableEq, Repr

/-- The output ports (R51). `outRec` and `outFrame` are `none` where they are not presented (R25, U8). -/
structure Outputs where
  evReady : Bool
  outValid : Bool
  outRec : Option Record
  outFrame : Option SideBand
  diag : DiagVec
  framesEmitted : Nat
  malformedCount : Nat
  overflowCount : Nat
  txErrCount : Nat
  idSeen : Bool
deriving DecidableEq, Repr

/-- The side-band port (R90, R91). -/
def sideBand (s : State) : SideBand :=
  { identifier := s.outFrame.identifier
    declaredLength := s.outFrame.declaredLength
    crc := s.outFrame.crc
    payloadLen := s.outFrame.payloadLen
    payloadValid := s.outFrame.payloadValid s.params.payloadCap
    payload := s.outFrame.payload.take (s.outFrame.payloadValid s.params.payloadCap) }

/-- The output ports in a step with the given `rst` (R51). They depend on the state and `rst` only (R121). `diag` is registered:
it shows the vector of the step before. -/
def outputs (s : State) (rst : Bool) : Outputs :=
  { evReady := evReady s rst
    outValid := outValid s rst
    outRec := if outValid s rst then some s.outRec else none
    outFrame := if outValid s rst then some (sideBand s) else none
    diag := s.diag
    framesEmitted := s.framesEmitted
    malformedCount := s.malformedCount
    overflowCount := s.overflowCount
    txErrCount := s.txErrCount
    idSeen := s.idSeen }

/-- One sink transfer (R15). -/
structure Transfer where
  record : Record
  frame : SideBand
  status : SinkStatus
deriving DecidableEq, Repr

/-- The transfer the coming step makes: one exactly when the step is a Complete (R43, R87). -/
def transferOf (s : State) : Option Transfer :=
  match stepKind s s.inputsNow with
  | .complete status => some { record := s.outRec, frame := sideBand s, status := status }
  | .accept _ => none
  | .reset => none
  | .idle => none

/-- The observation of a run (R15): the transfers in order, the vector of each step, the final counters. -/
structure Observation where
  transfers : List Transfer
  diags : List DiagVec
  framesEmitted : Nat
  malformedCount : Nat
  overflowCount : Nat
  txErrCount : Nat
deriving DecidableEq, Repr

/-- The observation of the next `n` steps. -/
def observe (n : Nat) (s : State) : Observation :=
  match n with
  | 0 => ⟨[], [], s.framesEmitted, s.malformedCount, s.overflowCount, s.txErrCount⟩
  | n + 1 =>
    match step s with
    | .next t =>
      let rest := observe n t
      { rest with transfers := (transferOf s).toList ++ rest.transfers, diags := t.diag :: rest.diags }
    | .fault _ => ⟨[], [], s.framesEmitted, s.malformedCount, s.overflowCount, s.txErrCount⟩
    | .refused _ => ⟨[], [], s.framesEmitted, s.malformedCount, s.overflowCount, s.txErrCount⟩

/-- The coming step accepts an ACK (R78). -/
def acceptsAck (s : State) : Bool :=
  match stepKind s s.inputsNow with
  | .accept w => decide (decode w = .ack)
  | .complete _ => false
  | .reset => false
  | .idle => false

/-- The records latched by the ACKs that the next `n` steps accept, in order (R46, R78). -/
def emittedRecords (n : Nat) (s : State) : List Record :=
  match n with
  | 0 => []
  | n + 1 =>
    match step s with
    | .next t => (if acceptsAck s then [t.outRec] else []) ++ emittedRecords n t
    | .fault _ => []
    | .refused _ => []

/-- None of the next `n` steps is a Reset. -/
def resetFree (n : Nat) (s : State) : Bool :=
  match n with
  | 0 => true
  | n + 1 =>
    match step s with
    | .next t => !s.inputsNow.rst && resetFree n t
    | .fault _ => true
    | .refused _ => true

/-- The record that waits for the sink, if one does (R24). -/
def pendingRecord (s : State) : List Record :=
  match s.phase with
  | .idle => []
  | .send => [s.outRec]

/-- The end of a run (R15): nothing more is listed on the input ports and the block is IDLE (log 17). -/
def runEnded (s : State) : Bool := s.inputs.isEmpty && decide (s.phase = .idle)

/-- The payload bytes an event brings: DATA's, and none for any other kind (R73, R75). -/
def broughtBytes : Instr → List Byte
  | .ident _ _ _ => []
  | .control _ => []
  | .data bytes => bytes
  | .dataRsv _ => []
  | .crc _ => []
  | .ack => []
  | .ignored _ => []

/-- Present events to the block one after another, each on the state the one before left. -/
def execAll (is : List Instr) (s : State) : Host.Outcome State Fault Refusal :=
  match is with
  | [] => .next s
  | i :: rest =>
    match exec i s with
    | .next t => execAll rest t
    | .fault r => .fault r
    | .refused r => .refused r

end Sys2Proof.Machine
end

