-- ==== Sys2Proof/Safety.lean ====
section
/-! DEFINITION. What claims call a good state: the invariants of spec/10_state.md R34, the register ranges of R21, R26, R27,
and the legal parameters of R9. -/

namespace Sys2Proof.Machine

/-- The sizes: R34(a), `payload_len` in `LEN_W` bits (R21), the counters in `CNT_W` bits (R26, R27). -/
abbrev State.WellSized (s : State) : Prop :=
  s.payload.length = clip s.params.payloadCap s.payloadLen ∧
  withinBound (maxOfWidth s.params.lenW) s.payloadLen = true ∧
  s.framesEmitted < 2 ^ s.params.cntW ∧ s.malformedCount < 2 ^ s.params.cntW ∧
  s.overflowCount < 2 ^ s.params.cntW ∧ s.txErrCount < 2 ^ s.params.cntW

/-- R34(b), (c): in SEND the record encodes the frame, and the frame is still the accumulator's snapshot. -/
abbrev State.LatchCoherent (s : State) : Prop :=
  s.phase = .send → s.outRec = encodeRecord s.outFrame ∧ s.outFrame = snapshot s

/-- R34(d): before any IDENT since reset the identifier is 0. -/
abbrev State.IdentifierUnset (s : State) : Prop := s.idSeen = false → s.identifier = 0x00000000

/-- The invariant of every reachable state (R34), with the parameters legal (R9). -/
abbrev State.Inv (s : State) : Prop :=
  legalParams s.params = true ∧ s.WellSized ∧ s.LatchCoherent ∧ s.IdentifierUnset

end Sys2Proof.Machine
end

