-- ==== Sys2Proof/Certificates/Slice0/Obligations.lean ====
section
/-! DEFINITION. The statements for the provers: what spec/'s numbered rules say the block does. A statement about `exec i s` is about
presenting the event `i` to the block in the state `s` out of reset; `s.phase = .idle` is the condition under which an event is
accepted (R52). `t` is the state after the step. -/

open Sys2Proof Sys2Proof.Machine

/-! ## The event word -/

/-- Encoded examples of R68's table and words of spec/95_test_vectors.md, written out from R55 to R61, decode to the events
they stand for. -/
def Obligations.WrittenOutWordsDecode : Prop :=
  decode 0x0000000001C000012301 = .ident 0xC0000123 true false ∧
  decode 0x00000000020000012301 = .ident 0x00000123 false true ∧
  decode 0x0000000000000000FF02 = .control 0xFF ∧
  decode 0xFFFFFFFFFFFFFFAAF103 = .data [0xAA] ∧
  decode 0x08070605040302010803 = .data [1, 2, 3, 4, 5, 6, 7, 8] ∧
  decode 0x00000000000000000903 = .dataRsv 9 ∧
  decode 0x00000000000000000F03 = .dataRsv 15 ∧
  decode 0x0000000000FFFFFFFF04 = .crc 0xFFFFFFFF ∧
  decode 0x00000000000000000005 = .ack ∧
  decode 0xFFFFFFFFFFFFFFFFFF06 = .ignored 0x06 ∧
  decode 0x00000000000000000000 = .ignored 0x00

/-- R63: the decoder's case table, with the fields of R55 to R61 as bit ranges. -/
def Obligations.DecoderCaseTable : Prop :=
  ∀ w : EventWord, decode w =
    if w.extractLsb' 0 8 = 0x01 then .ident (w.extractLsb' 8 32) (w.getLsbD 40) (w.getLsbD 41)
    else if w.extractLsb' 0 8 = 0x02 then .control (w.extractLsb' 8 8)
    else if w.extractLsb' 0 8 = 0x03 then
      (if (w.extractLsb' 8 4).toNat ≤ 8 then
        .data ((List.range (w.extractLsb' 8 4).toNat).map (fun j => w.extractLsb' (16 + 8 * j) 8))
       else .dataRsv (w.extractLsb' 8 4))
    else if w.extractLsb' 0 8 = 0x04 then .crc (w.extractLsb' 8 32)
    else if w.extractLsb' 0 8 = 0x05 then .ack
    else .ignored (w.extractLsb' 0 8)

/-- Decoding the word of a well-formed instruction gives it back, with every operand at every value. -/
def Obligations.DecodeEncodeRoundTrip : Prop :=
  ∀ i : Instr, i.WellFormed → decode (encode i) = i

/-- Every one of the 2^80 words decodes to an instruction the encoding can carry. -/
def Obligations.DecodedEventIsWellFormed : Prop :=
  ∀ w : EventWord, (decode w).WellFormed

/-- Encoding what a word decodes to gives the word with its ignored bits cleared: no named bit is dropped, and the encoder writes
the ignored bits as 0 (R62). -/
def Obligations.EncodeDecodeClearsIgnoredBits : Prop :=
  ∀ w : EventWord, encode (decode w) = w &&& namedBits w

/-- R62: two words that agree on the bits the first one's format names decode to the same event, so no step can tell them
apart. -/
def Obligations.IgnoredBitsHaveNoEffect : Prop :=
  ∀ w v : EventWord, w &&& namedBits w = v &&& namedBits w →
    decode v = decode w ∧ ∀ s : State, exec (decode v) s = exec (decode w) s

/-- Each word is of exactly one row of spec/opcode_table.json, and that row's mnemonic is its event's. -/
def Obligations.OpcodeRowsPartitionTheWords : Prop :=
  ∀ w : EventWord, (opcodeRows.filter (fun r => r.matchesWord w)).map OpcodeRow.mnemonic = [(decode w).mnemonic]

/-! ## What each event does -/

/-- R69, with R70(b)'s form for `ID_HIGH_BITS = CLEAR`. -/
def Obligations.IdentStartsFrame : Prop :=
  ∀ (identifier : Word) (isExtended isRemote : Bool) (s : State),
    wordKind (encode (.ident identifier isExtended isRemote)) = 0x01 ∧
    (s.phase = .idle →
      exec (.ident identifier isExtended isRemote) s = .next { s with
        payload := []
        payloadLen := 0
        identifier :=
          (if s.params.idHighBits = .keep then identifier else identifier &&& 0x3FFFFFFF) |||
            ((BitVec.ofBool isExtended).setWidth 32 <<< 31) ||| ((BitVec.ofBool isRemote).setWidth 32 <<< 30)
        idSeen := true
        diag := 0b00000 })

/-- R71. -/
def Obligations.ControlStoresLength : Prop :=
  ∀ (len : Byte) (s : State),
    wordKind (encode (.control len)) = 0x02 ∧
    (s.phase = .idle →
      exec (.control len) s = .next { s with
        declaredLength := len
        diag := (if 8 < len.toNat then 0b00001 else 0) ||| (if s.idSeen = false then 0b00010 else 0)
        malformedCount :=
          if 8 < len.toNat ∨ s.idSeen = false then (s.malformedCount + 1) % 2 ^ s.params.cntW else s.malformedCount })

/-- R73. -/
def Obligations.DataAppendsBytes : Prop :=
  ∀ (bytes : List Byte) (s : State), bytes.length ≤ 8 →
    wordKind (encode (.data bytes)) = 0x03 ∧
    (s.phase = .idle →
      exec (.data bytes) s = .next { s with
        payload :=
          match s.params.payloadCap with
          | .finite cap => (s.payload ++ bytes).take cap
          | .inf => s.payload ++ bytes
        payloadLen :=
          match s.params.lenW with
          | .finite lenW => min (s.payloadLen + bytes.length) (2 ^ lenW - 1)
          | .inf => s.payloadLen + bytes.length
        diag := if s.idSeen = false then 0b00010 else 0
        malformedCount :=
          if s.idSeen = false then (s.malformedCount + 1) % 2 ^ s.params.cntW else s.malformedCount })

/-- R75. -/
def Obligations.ReservedCountAppendsNothing : Prop :=
  ∀ (count : BitVec 4) (s : State), 9 ≤ count.toNat →
    wordKind (encode (.dataRsv count)) = 0x03 ∧ wordCount (encode (.dataRsv count)) = count ∧
    (s.phase = .idle →
      exec (.dataRsv count) s = .next { s with
        diag := 0b00100 ||| (if s.idSeen = false then 0b00010 else 0)
        malformedCount := (s.malformedCount + 1) % 2 ^ s.params.cntW })

/-- R76. -/
def Obligations.CrcStoresValue : Prop :=
  ∀ (crc : Word) (s : State),
    wordKind (encode (.crc crc)) = 0x04 ∧
    (s.phase = .idle →
      exec (.crc crc) s = .next { s with
        crc := crc
        diag := if s.idSeen = false then 0b00010 else 0
        malformedCount :=
          if s.idSeen = false then (s.malformedCount + 1) % 2 ^ s.params.cntW else s.malformedCount })

/-- R78, R86: what ACK counts, latches and reports; the accumulator is not among what changes. -/
def Obligations.AckEmitsSnapshot : Prop :=
  wordKind (encode .ack) = 0x05 ∧
  ∀ s : State, s.phase = .idle →
    exec .ack s = .next { s with
      framesEmitted := (s.framesEmitted + 1) % 2 ^ s.params.cntW
      outFrame :=
        { identifier := s.identifier, declaredLength := s.declaredLength, crc := s.crc,
          payloadLen := s.payloadLen, payload := s.payload }
      outRec := encodeRecord
        { identifier := s.identifier, declaredLength := s.declaredLength, crc := s.crc,
          payloadLen := s.payloadLen, payload := s.payload }
      phase := .send
      diag := (if s.idSeen = false then 0b00010 else 0) ||| (if 8 < s.payloadLen then 0b01000 else 0)
      malformedCount :=
        if s.idSeen = false then (s.malformedCount + 1) % 2 ^ s.params.cntW else s.malformedCount
      overflowCount :=
        if 8 < s.payloadLen then (s.overflowCount + 1) % 2 ^ s.params.cntW else s.overflowCount }

/-- R80: no state field changes; the step drives the vector `00000`. -/
def Obligations.IgnoredKindChangesNothing : Prop :=
  ∀ (kind : Byte) (s : State), kind = 0x00 ∨ 0x06 ≤ kind.toNat →
    wordKind (encode (.ignored kind)) = kind ∧
    (s.phase = .idle → exec (.ignored kind) s = .next { s with diag := 0b00000 })

/-! ## The registers -/

/-- R18: the flag bits and the value bits of `identifier`, and that only IDENT (and Reset) writes it. -/
def Obligations.IdentifierRegisterBits : Prop :=
  (∀ (identifier : Word) (isExtended isRemote : Bool) (s : State), s.phase = .idle →
    ∃ t, exec (.ident identifier isExtended isRemote) s = .next t ∧
      (∀ k < 30, t.identifier.getLsbD k = identifier.getLsbD k) ∧
      (s.params.idHighBits = .keep →
        t.identifier.getLsbD 31 = (identifier.getLsbD 31 || isExtended) ∧
        t.identifier.getLsbD 30 = (identifier.getLsbD 30 || isRemote)) ∧
      (s.params.idHighBits = .clear →
        t.identifier.getLsbD 31 = isExtended ∧ t.identifier.getLsbD 30 = isRemote)) ∧
  (∀ s t : State, step s = .next t → t.identifier ≠ s.identifier →
    stepKind s s.inputsNow = .reset ∨
    ∃ w a b c, stepKind s s.inputsNow = .accept w ∧ decode w = .ident a b c)

/-- R19: `declared_length` holds any value verbatim, an out-of-range one is reported, only CONTROL (and Reset) writes it, ACK
copies it to the side-band frame, and the record does not depend on it. -/
def Obligations.DeclaredLengthRegisterRule : Prop :=
  (∀ (len : Byte) (s : State), s.phase = .idle →
    ∃ t, exec (.control len) s = .next t ∧ t.declaredLength = len ∧
      (t.diag.getLsbD 0 = true ↔ ¬ len.toNat ≤ 8)) ∧
  (∀ s t : State, step s = .next t → t.declaredLength ≠ s.declaredLength →
    stepKind s s.inputsNow = .reset ∨
    ∃ w, stepKind s s.inputsNow = .accept w ∧ decode w = .control t.declaredLength) ∧
  (∀ s : State, s.phase = .idle → ∃ t, exec .ack s = .next t ∧ t.outFrame.declaredLength = s.declaredLength) ∧
  (∀ (f : CanFrame) (len : Byte), encodeRecord { f with declaredLength := len } = encodeRecord f)

/-- R22: `crc` is 0 after reset, holds any value verbatim, only CRC (and Reset) writes it, ACK copies it to the side-band
frame, and the record does not depend on it. -/
def Obligations.CrcRegisterRule : Prop :=
  State.reset.crc = 0x00000000 ∧
  (∀ (crc : Word) (s : State), s.phase = .idle → ∃ t, exec (.crc crc) s = .next t ∧ t.crc = crc) ∧
  (∀ s t : State, step s = .next t → t.crc ≠ s.crc →
    stepKind s s.inputsNow = .reset ∨
    ∃ w, stepKind s s.inputsNow = .accept w ∧ decode w = .crc t.crc) ∧
  (∀ s : State, s.phase = .idle → ∃ t, exec .ack s = .next t ∧ t.outFrame.crc = s.crc) ∧
  (∀ (f : CanFrame) (crc : Word), encodeRecord { f with crc := crc } = encodeRecord f)

/-- R23: `id_seen` is 0 after reset, IDENT sets it, no other step but Reset changes it, and its value affects only the
vector and `malformed_count`. -/
def Obligations.IdSeenFlagRule : Prop :=
  State.reset.idSeen = false ∧
  (∀ s t : State, step s = .next t →
    (t.idSeen = true ↔
      stepKind s s.inputsNow ≠ .reset ∧
      (s.idSeen = true ∨ ∃ w a b c, stepKind s s.inputsNow = .accept w ∧ decode w = .ident a b c))) ∧
  (∀ (i : Instr) (s t : State) (seen : Bool), exec i s = .next t →
    ∃ u, exec i { s with idSeen := seen } = .next u ∧
      u = { t with idSeen := u.idSeen, diag := u.diag, malformedCount := u.malformedCount })

/-- R24: how each step moves `phase`, and what the ports show in each. -/
def Obligations.PhaseTransitions : Prop :=
  (∀ s t : State, step s = .next t →
    t.phase =
      match stepKind s s.inputsNow with
      | .accept w => if decode w = .ack then .send else .idle
      | .complete _ => .idle
      | .reset => .idle
      | .idle => s.phase) ∧
  (∀ s : State, (outputs s false).evReady = decide (s.phase = .idle) ∧
    (outputs s false).outValid = decide (s.phase = .send) ∧
    (s.phase = .send → (outputs s false).outRec = some s.outRec))

/-- R33: the reset value of every field the spec gives one. -/
def Obligations.ResetStateValues : Prop :=
  State.reset.identifier = 0x00000000 ∧ State.reset.declaredLength = 0x00 ∧
  State.reset.payloadLen = 0 ∧ State.reset.payload = [] ∧ State.reset.crc = 0x00000000 ∧
  State.reset.idSeen = false ∧ State.reset.phase = .idle ∧
  State.reset.framesEmitted = 0 ∧ State.reset.malformedCount = 0 ∧
  State.reset.overflowCount = 0 ∧ State.reset.txErrCount = 0

/-- The write matrix of R35, arm by arm, over the spec's fields. What it says of the fields the model adds is the model's choice:
`s.sampled` is `s` with the step's input values taken from `inputs` or, when none is listed, free values counted by `draws`
(log 1, log 2); `diag` keeps the step's vector (log 7); and the Reset arm, where R35 says every field is written, says only that the
parameters and those lists stay (log 1, log 2, log 4). The values a Reset writes are `ResetStepClears`. -/
def Obligations.WriteMatrix : Prop :=
  ∀ s t : State, step s = .next t →
    match stepKind s s.inputsNow with
    | .accept w =>
      (match decode w with
       | .ident _ _ _ => t = { s.sampled with
           identifier := t.identifier, payload := t.payload, payloadLen := t.payloadLen, idSeen := t.idSeen, diag := t.diag }
       | .control _ => t = { s.sampled with
           declaredLength := t.declaredLength, malformedCount := t.malformedCount, diag := t.diag }
       | .data _ => t = { s.sampled with
           payload := t.payload, payloadLen := t.payloadLen, malformedCount := t.malformedCount, diag := t.diag }
       | .dataRsv _ => t = { s.sampled with malformedCount := t.malformedCount, diag := t.diag }
       | .crc _ => t = { s.sampled with crc := t.crc, malformedCount := t.malformedCount, diag := t.diag }
       | .ack => t = { s.sampled with
           phase := t.phase, outRec := t.outRec, outFrame := t.outFrame, framesEmitted := t.framesEmitted,
           malformedCount := t.malformedCount, overflowCount := t.overflowCount, diag := t.diag }
       | .ignored _ => t = { s.sampled with diag := t.diag })
    | .complete _ => t = { s.sampled with phase := t.phase, txErrCount := t.txErrCount, diag := t.diag }
    | .reset => t.params = s.params ∧ t.inputs = s.sampled.inputs ∧ t.draws = s.sampled.draws
    | .idle => t = { s.sampled with diag := t.diag }

/-- R31 over runs: as long as no CONTROL (or CRC) is presented and `rst` is low, `declared_length` (or `crc`) keeps its value,
through every IDENT, DATA, ACK and completion. -/
def Obligations.LengthAndCrcLeakForward : Prop :=
  ∀ (script later : List Inputs) (s : State), s.inputs = script ++ later → (∀ now ∈ script, now.rst = false) →
    ∃ t, Host.Core.run Sys2Proof.core script.length s = .next t ∧ t.inputs = later ∧
      ((∀ now ∈ script, ∀ len, decode now.evWord ≠ .control len) → t.declaredLength = s.declaredLength) ∧
      ((∀ now ∈ script, ∀ crc, decode now.evWord ≠ .crc crc) → t.crc = s.crc)

/-- What an IDENT leaves does not depend on the payload before it: early bytes reach no later record (R70(d)). -/
def Obligations.IdentForgetsPayload : Prop :=
  ∀ (identifier : Word) (isExtended isRemote : Bool) (s t : State) (payload : List Byte) (payloadLen : Nat),
    s.phase = .idle → exec (.ident identifier isExtended isRemote) s = .next t →
    t.payload = [] ∧ t.payloadLen = 0 ∧
    exec (.ident identifier isExtended isRemote) { s with payload := payload, payloadLen := payloadLen } = .next t

/-! ## The payload -/

/-- R38: the append, as the list equation and position by position, and that a saturated counter stores nothing more. -/
def Obligations.AppendByPosition : Prop :=
  ∀ (bytes : List Byte) (s : State), s.Inv → s.phase = .idle →
    ∃ t, exec (.data bytes) s = .next t ∧
      t.payload = takeBound s.params.payloadCap (s.payload ++ bytes) ∧
      t.payloadLen = satAdd s.params.lenW s.payloadLen bytes.length ∧
      (∀ k < s.payload.length, t.payload[k]? = s.payload[k]?) ∧
      (∀ j < bytes.length, withinBound s.params.payloadCap (s.payloadLen + j + 1) = true →
        t.payload[s.payloadLen + j]? = bytes[j]?) ∧
      (maxOfWidth s.params.lenW = .finite s.payloadLen → t.payload = s.payload)

/-- R66: a DataField sent as DATA words of at most 8 bytes each leaves the state that one DATA with all its bytes leaves, but
for `malformed_count`, which counts NO_ID once per word. Two choices of the model stand in it: a DataField of no bytes is one word,
where R65 also allows none (log 13), and `exec` takes a DATA of more than 8 bytes, which no word decodes to, as one step
(log 14). -/
def Obligations.ChunksEqualOneAppend : Prop :=
  ∀ (bytes : List Byte) (s : State), s.phase = .idle →
    ∃ t u, execAll (FieldEvent.dataField bytes).instrs s = .next t ∧ exec (.data bytes) s = .next u ∧
      t = { u with malformedCount := t.malformedCount } ∧
      t.malformedCount =
        if s.idSeen = false then (s.malformedCount + (FieldEvent.dataField bytes).words.length) % 2 ^ s.params.cntW
        else s.malformedCount

/-- The words the upstream sends for a field event decode to its events; a DataField's chunks are at most 8 bytes each,
`ceil(n/8)` of them, all but the last of 8, and together its bytes (R65). That `n = 0` is one word, where R65 also allows none, is
the model's choice (log 13). -/
def Obligations.UpstreamWordsDecode : Prop :=
  (∀ e : FieldEvent, (∀ kind, e = .other kind → kind = 0x00 ∨ 0x06 ≤ kind.toNat) →
    e.words.map decode = e.instrs) ∧
  (∀ bytes : List Byte,
    (dataChunks bytes).flatten = bytes ∧
    (dataChunks bytes).length = max 1 ((bytes.length + 7) / 8) ∧
    (∀ c ∈ dataChunks bytes, c.length ≤ 8) ∧
    (∀ k, k + 1 < (dataChunks bytes).length → ((dataChunks bytes)[k]?.map List.length) = some 8))

/-- The payload of the frame an ACK emits is the concatenation, in arrival order, of the bytes of the DATA events since the
last IDENT, whatever other events stand between, where they fit in the buffer (R91, spec/90_conflicts.md C12). Payloads past the
cap are left to `DataAppendsBytes` and `CapAndSaturationKeepRecord`; an unbounded cap beside a finite `LEN_W`, which the model
reads as illegal (log 11), is outside its premise. -/
def Obligations.FramePayloadIsConcatenation : Prop :=
  ∀ (identifier : Word) (isExtended isRemote : Bool) (between : List Instr) (s : State),
    legalParams s.params = true → s.phase = .idle →
    (∀ i ∈ between, i ≠ .ack ∧ ∀ a b c, i ≠ .ident a b c) →
    withinBound s.params.payloadCap (between.flatMap broughtBytes).length = true →
    ∃ t, execAll (Instr.ident identifier isExtended isRemote :: (between ++ [Instr.ack])) s = .next t ∧
      t.phase = .send ∧
      t.outFrame.payload = between.flatMap broughtBytes ∧
      t.outFrame.payloadLen = (between.flatMap broughtBytes).length ∧
      t.outFrame.declaredLength = t.declaredLength ∧ t.outFrame.crc = t.crc ∧
      t.outFrame.identifier = assembleIdentifier s.params.idHighBits identifier isExtended isRemote ∧
      t.outRec = encodeRecord t.outFrame

/-! ## The encoder -/

/-- R82: the record byte by byte, for a frame that holds the bytes its length counts. -/
def Obligations.RecordLayout : Prop :=
  ∀ f : CanFrame, min f.payloadLen 8 ≤ f.payload.length →
    recordByte (encodeRecord f) 0 = f.identifier.extractLsb' 0 8 ∧
    recordByte (encodeRecord f) 1 = f.identifier.extractLsb' 8 8 ∧
    recordByte (encodeRecord f) 2 = f.identifier.extractLsb' 16 8 ∧
    recordByte (encodeRecord f) 3 = f.identifier.extractLsb' 24 8 ∧
    recordByte (encodeRecord f) 4 = BitVec.ofNat 8 (min f.payloadLen 8) ∧
    recordByte (encodeRecord f) 5 = 0x00 ∧
    recordByte (encodeRecord f) 6 = 0x00 ∧
    recordByte (encodeRecord f) 7 = 0x00 ∧
    ∀ i < 8, recordByte (encodeRecord f) (8 + i) =
      if i < min f.payloadLen 8 then f.payload.getD i 0x00 else 0x00

/-- R93: the four worked records, byte 0 first. -/
def Obligations.WorkedRecords : Prop :=
  (∀ (declaredLength : Byte) (crc : Word),
    (List.range 16).map (recordByte (encodeRecord ⟨0x123, declaredLength, crc, 3, [0xAA, 0xBB, 0xCC]⟩)) =
      [0x23, 0x01, 0x00, 0x00, 0x03, 0x00, 0x00, 0x00, 0xAA, 0xBB, 0xCC, 0x00, 0x00, 0x00, 0x00, 0x00]) ∧
  (∀ (declaredLength : Byte) (crc : Word),
    (List.range 16).map (recordByte (encodeRecord ⟨0x80000123, declaredLength, crc, 0, []⟩)) =
      [0x23, 0x01, 0x00, 0x80, 0x00, 0x00, 0x00, 0x00, 0x00, 0x00, 0x00, 0x00, 0x00, 0x00, 0x00, 0x00]) ∧
  (∀ (declaredLength : Byte) (crc : Word),
    (List.range 16).map (recordByte (encodeRecord ⟨0x40000123, declaredLength, crc, 10, [1, 2, 3, 4, 5, 6, 7, 8, 9, 10]⟩)) =
      [0x23, 0x01, 0x00, 0x40, 0x08, 0x00, 0x00, 0x00, 0x01, 0x02, 0x03, 0x04, 0x05, 0x06, 0x07, 0x08]) ∧
  (∀ (declaredLength : Byte) (crc : Word),
    (List.range 16).map (recordByte (encodeRecord ⟨0, declaredLength, crc, 0, []⟩)) = List.replicate 16 0x00)

/-- Frames with equal identifier, equal `min(payload_len, 8)` and equal first bytes up to it encode to the same record (R94). -/
def Obligations.RecordReadsOnlyItsFields : Prop :=
  ∀ f g : CanFrame, f.identifier = g.identifier → min f.payloadLen 8 = min g.payloadLen 8 →
    f.payload.take (min f.payloadLen 8) = g.payload.take (min g.payloadLen 8) →
    encodeRecord f = encodeRecord g

/-- With legal parameters neither the payload cap nor the saturation of the length changes a record: encoding the unbounded
payload and its length gives the record of the capped payload and the saturated length (R21, R37). -/
def Obligations.CapAndSaturationKeepRecord : Prop :=
  ∀ (p : Params) (identifier crc : Word) (declaredLength : Byte) (bytes : List Byte), legalParams p = true →
    encodeRecord ⟨identifier, declaredLength, crc, clip (maxOfWidth p.lenW) bytes.length, takeBound p.payloadCap bytes⟩ =
      encodeRecord ⟨identifier, declaredLength, crc, bytes.length, bytes⟩

/-- R99: an ACK with more than 8 payload bytes reports OVERFLOW, truncates to the first 8 bytes, still emits and counts the
frame, and a second ACK with the same payload reports it again. -/
def Obligations.OverflowTruncatesAndReports : Prop :=
  ∀ s : State, s.Inv → s.phase = .idle → 8 < s.payloadLen →
    ∃ t, exec .ack s = .next t ∧ t.phase = .send ∧
      t.diag.getLsbD 3 = true ∧
      t.overflowCount = (s.overflowCount + 1) % 2 ^ s.params.cntW ∧
      t.framesEmitted = (s.framesEmitted + 1) % 2 ^ s.params.cntW ∧
      recordByte t.outRec 4 = 0x08 ∧
      (∀ i < 8, s.payload[i]? = some (recordByte t.outRec (8 + i))) ∧
      ∀ status, ∃ u, exec .ack (t.complete status) = .next u ∧ u.diag.getLsbD 3 = true

/-- ACK does not clear the accumulator: a second ACK after the first completes emits the same record and frame, and the count
goes up by 2 (R79(a)). -/
def Obligations.SecondAckRepeatsRecord : Prop :=
  ∀ (s : State) (status : SinkStatus), s.phase = .idle →
    ∃ t u, exec .ack s = .next t ∧ exec .ack (t.complete status) = .next u ∧
      u.outRec = t.outRec ∧ u.outFrame = t.outFrame ∧ u.phase = .send ∧
      u.framesEmitted = (s.framesEmitted + 2) % 2 ^ s.params.cntW

/-! ## Diagnostics -/

/-- R96: each bit of the vector is 1 exactly when its condition held in the step. -/
def Obligations.DiagnosticConditions : Prop :=
  ∀ s t : State, step s = .next t →
    (t.diag.getLsbD 0 = true ↔
      ∃ w len, stepKind s s.inputsNow = .accept w ∧ decode w = .control len ∧ 8 < len.toNat) ∧
    (t.diag.getLsbD 1 = true ↔ s.idSeen = false ∧
      ∃ w, stepKind s s.inputsNow = .accept w ∧ (∀ a b c, decode w ≠ .ident a b c) ∧ ∀ kind, decode w ≠ .ignored kind) ∧
    (t.diag.getLsbD 2 = true ↔ ∃ w count, stepKind s s.inputsNow = .accept w ∧ decode w = .dataRsv count) ∧
    (t.diag.getLsbD 3 = true ↔ ∃ w, stepKind s s.inputsNow = .accept w ∧ decode w = .ack ∧ 8 < s.payloadLen) ∧
    (t.diag.getLsbD 4 = true ↔ stepKind s s.inputsNow = .complete .err)

/-- R97: the diagnostic counters after a step are those before it, each plus one, wrapping, if its bits are in the step's
vector (Reset clears them: R111); and the end of a step changes nothing but the vector and those three counters. -/
def Obligations.CountersFollowDiagnostics : Prop :=
  (∀ s t : State, step s = .next t → stepKind s s.inputsNow ≠ .reset →
    t.malformedCount =
      (if t.diag.extractLsb' 0 3 ≠ 0 then (s.malformedCount + 1) % 2 ^ s.params.cntW else s.malformedCount) ∧
    t.overflowCount =
      (if t.diag.getLsbD 3 then (s.overflowCount + 1) % 2 ^ s.params.cntW else s.overflowCount) ∧
    t.txErrCount =
      (if t.diag.getLsbD 4 then (s.txErrCount + 1) % 2 ^ s.params.cntW else s.txErrCount)) ∧
  (∀ (d : DiagVec) (s : State), s.endOfStep d = { s with
    diag := d
    malformedCount := if d.extractLsb' 0 3 ≠ 0 then (s.malformedCount + 1) % 2 ^ s.params.cntW else s.malformedCount
    overflowCount := if d.getLsbD 3 then (s.overflowCount + 1) % 2 ^ s.params.cntW else s.overflowCount
    txErrCount := if d.getLsbD 4 then (s.txErrCount + 1) % 2 ^ s.params.cntW else s.txErrCount })

/-- R102: the vectors a step can drive, and that the three combinations occur. -/
def Obligations.DiagnosticCombinations : Prop :=
  (∀ s t : State, step s = .next t →
    t.diag ∈ ([0b00000, 0b00001, 0b00010, 0b00011, 0b00100, 0b00110, 0b01000, 0b01010, 0b10000] : List DiagVec)) ∧
  (∃ s t, step s = .next t ∧ t.diag = 0b00011) ∧
  (∃ s t, step s = .next t ∧ t.diag = 0b00110) ∧
  (∃ s t, step s = .next t ∧ t.diag = 0b01010)

/-- `frames_emitted` goes up by one, wrapping, exactly in the steps that accept an ACK, and Complete of either status leaves it
(R26). -/
def Obligations.FramesCountAcceptedAcks : Prop :=
  ∀ s t : State, step s = .next t → stepKind s s.inputsNow ≠ .reset →
    ((∃ w, stepKind s s.inputsNow = .accept w ∧ decode w = .ack) →
      t.framesEmitted = (s.framesEmitted + 1) % 2 ^ s.params.cntW) ∧
    ((∀ w, stepKind s s.inputsNow = .accept w → decode w ≠ .ack) → t.framesEmitted = s.framesEmitted)

/-- No rule reads a counter: whatever values the four counters hold, a step changes every other field in the same way (R27,
R107). -/
def Obligations.CountersDecideNothing : Prop :=
  ∀ (s t : State) (frames malformed overflow txErr : Nat), step s = .next t →
    ∃ u, step { s with framesEmitted := frames, malformedCount := malformed, overflowCount := overflow, txErrCount := txErr } =
        .next u ∧
      u = { t with
        framesEmitted := u.framesEmitted, malformedCount := u.malformedCount, overflowCount := u.overflowCount,
        txErrCount := u.txErrCount }

/-! ## Steps and handshakes -/

/-- When an event word is presented and the block is IDLE out of reset, the step is `exec` of the event the word decodes to, on
the state whose input values are taken; and a table word placed by `withFetchWord` is what the next step runs. -/
def Obligations.StepRunsDecodedEvent : Prop :=
  (∀ s : State, s.inputsNow.rst = false → s.inputsNow.evValid = true → s.phase = .idle →
    step s = exec (decode s.inputsNow.evWord) s.sampled) ∧
  (∀ (s : State) (now : Inputs) (later : List Inputs), s.inputs = now :: later →
    s.inputsNow = now ∧ s.sampled = { s with inputs := later }) ∧
  (∀ (s : State) (nbits w : Nat), nbits ≤ 80 →
    ∃ i, decodeTableWord nbits w = some i ∧ step (s.withFetchWord nbits w) = exec i s)

/-- Every step answers a next state: no error stops the block (R95). -/
def Obligations.EveryStepCompletes : Prop :=
  ∀ s : State, ∃ t, step s = .next t

/-- An event is accepted in a step exactly when it is presented and the port is ready (R52). The second clause is the model's
reading (log 8, DEDUCED) of `exec`: presenting an event alone, with no completion beside it, to a block in SEND leaves the state with
the vector 00000. It is not about a step: a step in SEND in which `out_ready` is 1 is a Complete whatever is presented, and moves
`phase` and may drive TX_ERR (`CompletionReleasesLatch`). -/
def Obligations.EventTakenOnlyWhenReady : Prop :=
  (∀ (s : State) (w : EventWord), stepKind s s.inputsNow = .accept w ↔
    s.inputsNow.evValid = true ∧ (outputs s s.inputsNow.rst).evReady = true ∧ s.inputsNow.evWord = w) ∧
  (∀ (i : Instr) (s : State), s.phase = .send → exec i s = .next { s with diag := 0b00000 })

/-- In SEND the event pins cannot change what a step does; in IDLE the sink's pins cannot (R52, R87, R121). -/
def Obligations.UnreadyPortPinsHaveNoEffect : Prop :=
  ∀ (s : State) (now other : Inputs) (later : List Inputs), other.rst = now.rst →
    (s.phase = .send → other.outReady = now.outReady → other.sinkStatus = now.sinkStatus →
      step { s with inputs := other :: later } = step { s with inputs := now :: later }) ∧
    (s.phase = .idle → other.evValid = now.evValid → other.evWord = now.evWord →
      step { s with inputs := other :: later } = step { s with inputs := now :: later })

/-- R89: the sink may hold off for any number of steps, whatever events are presented meanwhile: the block stays in SEND with its
latch and every other field as they are. -/
def Obligations.SinkMayStallForEver : Prop :=
  ∀ (stall later : List Inputs) (s : State), s.phase = .send → s.inputs = stall ++ later →
    (∀ now ∈ stall, now.rst = false ∧ now.outReady = false) →
    Host.Core.run Sys2Proof.core stall.length s =
      .next { s with inputs := later, diag := if stall = [] then s.diag else 0b00000 }

/-- R87, R100: what a completion changes. -/
def Obligations.CompletionReleasesLatch : Prop :=
  ∀ s : State, s.phase = .send → s.inputsNow.rst = false → s.inputsNow.outReady = true →
    stepKind s s.inputsNow = .complete s.inputsNow.sinkStatus ∧
    step s = .next { s.sampled with
      phase := .idle
      diag := if s.inputsNow.sinkStatus = .err then 0b10000 else 0b00000
      txErrCount :=
        if s.inputsNow.sinkStatus = .err then (s.txErrCount + 1) % 2 ^ s.params.cntW else s.txErrCount }

/-- After a completion with ERR every later stream of events is processed exactly as after OK, but for `tx_err_count` (R88). -/
def Obligations.SinkErrorChangesNothingLater : Prop :=
  ∀ (s : State) (i : Instr) (is : List Instr),
    ∃ t u, execAll (i :: is) (s.complete .ok) = .next t ∧ execAll (i :: is) (s.complete .err) = .next u ∧
      u = { t with txErrCount := (s.txErrCount + 1) % 2 ^ s.params.cntW }

/-- R111: the Reset step, from every state and whatever else the input ports carry. -/
def Obligations.ResetStepClears : Prop :=
  ∀ s : State, s.inputsNow.rst = true →
    (outputs s true).evReady = false ∧ (outputs s true).outValid = false ∧
    ∃ t, step s = .next t ∧
      t.identifier = 0x00000000 ∧ t.declaredLength = 0x00 ∧ t.payloadLen = 0 ∧ t.payload = [] ∧
      t.crc = 0x00000000 ∧ t.idSeen = false ∧ t.phase = .idle ∧
      t.framesEmitted = 0 ∧ t.malformedCount = 0 ∧ t.overflowCount = 0 ∧ t.txErrCount = 0 ∧
      t.diag = 0b00000

/-- Reset beats every handshake: no event is accepted and no transfer is made in a Reset step, a pending record is discarded, and
what the event and sink pins carry does not matter (R112). -/
def Obligations.ResetBeatsHandshakes : Prop :=
  (∀ s : State, s.inputsNow.rst = true → stepKind s s.inputsNow = .reset ∧ transferOf s = none) ∧
  (∀ (s : State) (now other : Inputs) (later : List Inputs), now.rst = true → other.rst = true →
    step { s with inputs := other :: later } = step { s with inputs := now :: later })

/-- The two waiting states keep all state: IDLE with no event presented, and SEND with the sink not ready (R110, R14(d)). -/
def Obligations.WaitingKeepsState : Prop :=
  ∀ s : State, s.inputsNow.rst = false →
    (s.phase = .idle ∧ s.inputsNow.evValid = false) ∨ (s.phase = .send ∧ s.inputsNow.outReady = false) →
    stepKind s s.inputsNow = .idle ∧ step s = .next { s.sampled with diag := 0b00000 }

/-- In a reachable state in SEND the output port presents the accumulator's own frame and its record, and a completion transfers
exactly those; in IDLE it presents nothing (R34(b), R34(c), R86, R90). -/
def Obligations.PresentedFrameIsTheAccumulator : Prop :=
  (∀ s : State, s.Inv → s.phase = .send →
    (outputs s false).outRec = some (encodeRecord (snapshot s)) ∧
    (outputs s false).outFrame = some
      { identifier := s.identifier, declaredLength := s.declaredLength, crc := s.crc, payloadLen := s.payloadLen,
        payloadValid := clip s.params.payloadCap s.payloadLen, payload := s.payload } ∧
    (∀ x, transferOf s = some x → (outputs s false).outRec = some x.record ∧ (outputs s false).outFrame = some x.frame)) ∧
  (∀ (s : State) (rst : Bool), s.phase = .idle → (outputs s rst).outRec = none ∧ (outputs s rst).outFrame = none) ∧
  (∀ (s : State) (rst : Bool), ¬ ((outputs s rst).evReady = true ∧ (outputs s rst).outValid = true))

/-- The parameters are fixed at elaboration: no step changes them (R9, R30, R114). That they stand in the state is the model's
choice (log 4). -/
def Obligations.ParametersNeverChange : Prop :=
  ∀ s t : State, step s = .next t → t.params = s.params

/-- Over any run without a Reset, the record pending at its start and then the records its ACKs latched are, in order, the records
the sink took and then the one still pending: none is lost, repeated or reordered, and at most one is outstanding (R43, R46,
R86). -/
def Obligations.SinkTakesAckedRecordsInOrder : Prop :=
  ∀ (n : Nat) (s t : State), Host.Core.run Sys2Proof.core n s = .next t → resetFree n s = true →
    pendingRecord s ++ emittedRecords n s = (observe n s).transfers.map Transfer.record ++ pendingRecord t

/-- A frame of IDENT, CONTROL, `n` DATA, CRC and ACK, presented one word a cycle to a sink that is ready at once, takes `n + 5`
cycles: the block is IDLE again, one frame counted and one record transferred (R122, R123; one model step is one cycle of
R121, log 18). -/
def Obligations.FrameTakesNPlusFiveCycles : Prop :=
  ∀ (identifier crc : Word) (isExtended isRemote : Bool) (len : Byte) (chunks : List (List Byte)) (later : List Inputs)
    (s : State), s.phase = .idle →
    (∀ c ∈ chunks, c.length ≤ 8) →
    s.inputs =
      ([Instr.ident identifier isExtended isRemote, Instr.control len] ++ chunks.map Instr.data ++
        [Instr.crc crc, Instr.ack]).map (fun i => presentWord (encode i)) ++
        ({ rst := false, evValid := false, evWord := 0, outReady := true, sinkStatus := .ok } :: later) →
    ∃ t, Host.Core.run Sys2Proof.core (chunks.length + 5) s = .next t ∧
      t.phase = .idle ∧ t.inputs = later ∧
      t.framesEmitted = (s.framesEmitted + 1) % 2 ^ s.params.cntW ∧
      (observe (chunks.length + 5) s).transfers.length = 1

/-! ## Invariants -/

/-- The invariant of R34, with the register ranges and legal parameters, holds at reset. -/
def Obligations.ResetMeetsInvariant : Prop :=
  State.reset.Inv

/-- Every step keeps the invariant of R34, with the register ranges (R21, R26, R27) and legal parameters (R9). -/
def Obligations.StepKeepsInvariant : Prop :=
  ∀ s t : State, s.Inv → step s = .next t → t.Inv
end

