-- ==== Sys2Proof/Laws/State.lean ====
section
/-! SUPPORT. One lemma per field per named update of the state, so that no proof unfolds a record update. -/

namespace Sys2Proof.Machine

/-! IDENT's writes: `State.newFrame`. -/

@[simp] theorem State.newFrame_identifier (identifier : Word) (s : State) : (s.newFrame identifier).identifier = identifier := rfl
@[simp] theorem State.newFrame_declaredLength (identifier : Word) (s : State) :
    (s.newFrame identifier).declaredLength = s.declaredLength := rfl
@[simp] theorem State.newFrame_payload (identifier : Word) (s : State) : (s.newFrame identifier).payload = [] := rfl
@[simp] theorem State.newFrame_payloadLen (identifier : Word) (s : State) : (s.newFrame identifier).payloadLen = 0 := rfl
@[simp] theorem State.newFrame_crc (identifier : Word) (s : State) : (s.newFrame identifier).crc = s.crc := rfl
@[simp] theorem State.newFrame_idSeen (identifier : Word) (s : State) : (s.newFrame identifier).idSeen = true := rfl
@[simp] theorem State.newFrame_phase (identifier : Word) (s : State) : (s.newFrame identifier).phase = s.phase := rfl
@[simp] theorem State.newFrame_outRec (identifier : Word) (s : State) : (s.newFrame identifier).outRec = s.outRec := rfl
@[simp] theorem State.newFrame_outFrame (identifier : Word) (s : State) : (s.newFrame identifier).outFrame = s.outFrame := rfl
@[simp] theorem State.newFrame_framesEmitted (identifier : Word) (s : State) :
    (s.newFrame identifier).framesEmitted = s.framesEmitted := rfl
@[simp] theorem State.newFrame_malformedCount (identifier : Word) (s : State) :
    (s.newFrame identifier).malformedCount = s.malformedCount := rfl
@[simp] theorem State.newFrame_overflowCount (identifier : Word) (s : State) :
    (s.newFrame identifier).overflowCount = s.overflowCount := rfl
@[simp] theorem State.newFrame_txErrCount (identifier : Word) (s : State) :
    (s.newFrame identifier).txErrCount = s.txErrCount := rfl
@[simp] theorem State.newFrame_diag (identifier : Word) (s : State) : (s.newFrame identifier).diag = s.diag := rfl
@[simp] theorem State.newFrame_params (identifier : Word) (s : State) : (s.newFrame identifier).params = s.params := rfl
@[simp] theorem State.newFrame_inputs (identifier : Word) (s : State) : (s.newFrame identifier).inputs = s.inputs := rfl
@[simp] theorem State.newFrame_draws (identifier : Word) (s : State) : (s.newFrame identifier).draws = s.draws := rfl

/-! CONTROL's write: `State.setDeclaredLength`. -/

@[simp] theorem State.setDeclaredLength_identifier (declaredLength : Byte) (s : State) :
    (s.setDeclaredLength declaredLength).identifier = s.identifier := rfl
@[simp] theorem State.setDeclaredLength_declaredLength (declaredLength : Byte) (s : State) :
    (s.setDeclaredLength declaredLength).declaredLength = declaredLength := rfl
@[simp] theorem State.setDeclaredLength_payload (declaredLength : Byte) (s : State) :
    (s.setDeclaredLength declaredLength).payload = s.payload := rfl
@[simp] theorem State.setDeclaredLength_payloadLen (declaredLength : Byte) (s : State) :
    (s.setDeclaredLength declaredLength).payloadLen = s.payloadLen := rfl
@[simp] theorem State.setDeclaredLength_crc (declaredLength : Byte) (s : State) :
    (s.setDeclaredLength declaredLength).crc = s.crc := rfl
@[simp] theorem State.setDeclaredLength_idSeen (declaredLength : Byte) (s : State) :
    (s.setDeclaredLength declaredLength).idSeen = s.idSeen := rfl
@[simp] theorem State.setDeclaredLength_phase (declaredLength : Byte) (s : State) :
    (s.setDeclaredLength declaredLength).phase = s.phase := rfl
@[simp] theorem State.setDeclaredLength_outRec (declaredLength : Byte) (s : State) :
    (s.setDeclaredLength declaredLength).outRec = s.outRec := rfl
@[simp] theorem State.setDeclaredLength_outFrame (declaredLength : Byte) (s : State) :
    (s.setDeclaredLength declaredLength).outFrame = s.outFrame := rfl
@[simp] theorem State.setDeclaredLength_framesEmitted (declaredLength : Byte) (s : State) :
    (s.setDeclaredLength declaredLength).framesEmitted = s.framesEmitted := rfl
@[simp] theorem State.setDeclaredLength_malformedCount (declaredLength : Byte) (s : State) :
    (s.setDeclaredLength declaredLength).malformedCount = s.malformedCount := rfl
@[simp] theorem State.setDeclaredLength_overflowCount (declaredLength : Byte) (s : State) :
    (s.setDeclaredLength declaredLength).overflowCount = s.overflowCount := rfl
@[simp] theorem State.setDeclaredLength_txErrCount (declaredLength : Byte) (s : State) :
    (s.setDeclaredLength declaredLength).txErrCount = s.txErrCount := rfl
@[simp] theorem State.setDeclaredLength_diag (declaredLength : Byte) (s : State) :
    (s.setDeclaredLength declaredLength).diag = s.diag := rfl
@[simp] theorem State.setDeclaredLength_params (declaredLength : Byte) (s : State) :
    (s.setDeclaredLength declaredLength).params = s.params := rfl
@[simp] theorem State.setDeclaredLength_inputs (declaredLength : Byte) (s : State) :
    (s.setDeclaredLength declaredLength).inputs = s.inputs := rfl
@[simp] theorem State.setDeclaredLength_draws (declaredLength : Byte) (s : State) :
    (s.setDeclaredLength declaredLength).draws = s.draws := rfl

/-! DATA's writes: `State.appendBytes`. -/

@[simp] theorem State.appendBytes_identifier (bytes : List Byte) (s : State) :
    (s.appendBytes bytes).identifier = s.identifier := rfl
@[simp] theorem State.appendBytes_declaredLength (bytes : List Byte) (s : State) :
    (s.appendBytes bytes).declaredLength = s.declaredLength := rfl
@[simp] theorem State.appendBytes_payload (bytes : List Byte) (s : State) :
    (s.appendBytes bytes).payload = appendView s.params.payloadCap s.payload bytes := rfl
@[simp] theorem State.appendBytes_payloadLen (bytes : List Byte) (s : State) :
    (s.appendBytes bytes).payloadLen = satAdd s.params.lenW s.payloadLen bytes.length := rfl
@[simp] theorem State.appendBytes_crc (bytes : List Byte) (s : State) : (s.appendBytes bytes).crc = s.crc := rfl
@[simp] theorem State.appendBytes_idSeen (bytes : List Byte) (s : State) : (s.appendBytes bytes).idSeen = s.idSeen := rfl
@[simp] theorem State.appendBytes_phase (bytes : List Byte) (s : State) : (s.appendBytes bytes).phase = s.phase := rfl
@[simp] theorem State.appendBytes_outRec (bytes : List Byte) (s : State) : (s.appendBytes bytes).outRec = s.outRec := rfl
@[simp] theorem State.appendBytes_outFrame (bytes : List Byte) (s : State) : (s.appendBytes bytes).outFrame = s.outFrame := rfl
@[simp] theorem State.appendBytes_framesEmitted (bytes : List Byte) (s : State) :
    (s.appendBytes bytes).framesEmitted = s.framesEmitted := rfl
@[simp] theorem State.appendBytes_malformedCount (bytes : List Byte) (s : State) :
    (s.appendBytes bytes).malformedCount = s.malformedCount := rfl
@[simp] theorem State.appendBytes_overflowCount (bytes : List Byte) (s : State) :
    (s.appendBytes bytes).overflowCount = s.overflowCount := rfl
@[simp] theorem State.appendBytes_txErrCount (bytes : List Byte) (s : State) :
    (s.appendBytes bytes).txErrCount = s.txErrCount := rfl
@[simp] theorem State.appendBytes_diag (bytes : List Byte) (s : State) : (s.appendBytes bytes).diag = s.diag := rfl
@[simp] theorem State.appendBytes_params (bytes : List Byte) (s : State) : (s.appendBytes bytes).params = s.params := rfl
@[simp] theorem State.appendBytes_inputs (bytes : List Byte) (s : State) : (s.appendBytes bytes).inputs = s.inputs := rfl
@[simp] theorem State.appendBytes_draws (bytes : List Byte) (s : State) : (s.appendBytes bytes).draws = s.draws := rfl

/-! CRC's write: `State.setCrc`. -/

@[simp] theorem State.setCrc_identifier (crc : Word) (s : State) : (s.setCrc crc).identifier = s.identifier := rfl
@[simp] theorem State.setCrc_declaredLength (crc : Word) (s : State) : (s.setCrc crc).declaredLength = s.declaredLength := rfl
@[simp] theorem State.setCrc_payload (crc : Word) (s : State) : (s.setCrc crc).payload = s.payload := rfl
@[simp] theorem State.setCrc_payloadLen (crc : Word) (s : State) : (s.setCrc crc).payloadLen = s.payloadLen := rfl
@[simp] theorem State.setCrc_crc (crc : Word) (s : State) : (s.setCrc crc).crc = crc := rfl
@[simp] theorem State.setCrc_idSeen (crc : Word) (s : State) : (s.setCrc crc).idSeen = s.idSeen := rfl
@[simp] theorem State.setCrc_phase (crc : Word) (s : State) : (s.setCrc crc).phase = s.phase := rfl
@[simp] theorem State.setCrc_outRec (crc : Word) (s : State) : (s.setCrc crc).outRec = s.outRec := rfl
@[simp] theorem State.setCrc_outFrame (crc : Word) (s : State) : (s.setCrc crc).outFrame = s.outFrame := rfl
@[simp] theorem State.setCrc_framesEmitted (crc : Word) (s : State) : (s.setCrc crc).framesEmitted = s.framesEmitted := rfl
@[simp] theorem State.setCrc_malformedCount (crc : Word) (s : State) : (s.setCrc crc).malformedCount = s.malformedCount := rfl
@[simp] theorem State.setCrc_overflowCount (crc : Word) (s : State) : (s.setCrc crc).overflowCount = s.overflowCount := rfl
@[simp] theorem State.setCrc_txErrCount (crc : Word) (s : State) : (s.setCrc crc).txErrCount = s.txErrCount := rfl
@[simp] theorem State.setCrc_diag (crc : Word) (s : State) : (s.setCrc crc).diag = s.diag := rfl
@[simp] theorem State.setCrc_params (crc : Word) (s : State) : (s.setCrc crc).params = s.params := rfl
@[simp] theorem State.setCrc_inputs (crc : Word) (s : State) : (s.setCrc crc).inputs = s.inputs := rfl
@[simp] theorem State.setCrc_draws (crc : Word) (s : State) : (s.setCrc crc).draws = s.draws := rfl

/-! the frame count: `State.countFrame`. -/

@[simp] theorem State.countFrame_identifier (s : State) : (s.countFrame).identifier = s.identifier := rfl
@[simp] theorem State.countFrame_declaredLength (s : State) : (s.countFrame).declaredLength = s.declaredLength := rfl
@[simp] theorem State.countFrame_payload (s : State) : (s.countFrame).payload = s.payload := rfl
@[simp] theorem State.countFrame_payloadLen (s : State) : (s.countFrame).payloadLen = s.payloadLen := rfl
@[simp] theorem State.countFrame_crc (s : State) : (s.countFrame).crc = s.crc := rfl
@[simp] theorem State.countFrame_idSeen (s : State) : (s.countFrame).idSeen = s.idSeen := rfl
@[simp] theorem State.countFrame_phase (s : State) : (s.countFrame).phase = s.phase := rfl
@[simp] theorem State.countFrame_outRec (s : State) : (s.countFrame).outRec = s.outRec := rfl
@[simp] theorem State.countFrame_outFrame (s : State) : (s.countFrame).outFrame = s.outFrame := rfl
@[simp] theorem State.countFrame_framesEmitted (s : State) :
    (s.countFrame).framesEmitted = wrapAdd s.params.cntW s.framesEmitted 1 := rfl
@[simp] theorem State.countFrame_malformedCount (s : State) : (s.countFrame).malformedCount = s.malformedCount := rfl
@[simp] theorem State.countFrame_overflowCount (s : State) : (s.countFrame).overflowCount = s.overflowCount := rfl
@[simp] theorem State.countFrame_txErrCount (s : State) : (s.countFrame).txErrCount = s.txErrCount := rfl
@[simp] theorem State.countFrame_diag (s : State) : (s.countFrame).diag = s.diag := rfl
@[simp] theorem State.countFrame_params (s : State) : (s.countFrame).params = s.params := rfl
@[simp] theorem State.countFrame_inputs (s : State) : (s.countFrame).inputs = s.inputs := rfl
@[simp] theorem State.countFrame_draws (s : State) : (s.countFrame).draws = s.draws := rfl

/-! the output latch: `State.emit`. -/

@[simp] theorem State.emit_identifier (frame : CanFrame) (s : State) : (s.emit frame).identifier = s.identifier := rfl
@[simp] theorem State.emit_declaredLength (frame : CanFrame) (s : State) : (s.emit frame).declaredLength = s.declaredLength := rfl
@[simp] theorem State.emit_payload (frame : CanFrame) (s : State) : (s.emit frame).payload = s.payload := rfl
@[simp] theorem State.emit_payloadLen (frame : CanFrame) (s : State) : (s.emit frame).payloadLen = s.payloadLen := rfl
@[simp] theorem State.emit_crc (frame : CanFrame) (s : State) : (s.emit frame).crc = s.crc := rfl
@[simp] theorem State.emit_idSeen (frame : CanFrame) (s : State) : (s.emit frame).idSeen = s.idSeen := rfl
@[simp] theorem State.emit_phase (frame : CanFrame) (s : State) : (s.emit frame).phase = .send := rfl
@[simp] theorem State.emit_outRec (frame : CanFrame) (s : State) : (s.emit frame).outRec = encodeRecord frame := rfl
@[simp] theorem State.emit_outFrame (frame : CanFrame) (s : State) : (s.emit frame).outFrame = frame := rfl
@[simp] theorem State.emit_framesEmitted (frame : CanFrame) (s : State) : (s.emit frame).framesEmitted = s.framesEmitted := rfl
@[simp] theorem State.emit_malformedCount (frame : CanFrame) (s : State) : (s.emit frame).malformedCount = s.malformedCount := rfl
@[simp] theorem State.emit_overflowCount (frame : CanFrame) (s : State) : (s.emit frame).overflowCount = s.overflowCount := rfl
@[simp] theorem State.emit_txErrCount (frame : CanFrame) (s : State) : (s.emit frame).txErrCount = s.txErrCount := rfl
@[simp] theorem State.emit_diag (frame : CanFrame) (s : State) : (s.emit frame).diag = s.diag := rfl
@[simp] theorem State.emit_params (frame : CanFrame) (s : State) : (s.emit frame).params = s.params := rfl
@[simp] theorem State.emit_inputs (frame : CanFrame) (s : State) : (s.emit frame).inputs = s.inputs := rfl
@[simp] theorem State.emit_draws (frame : CanFrame) (s : State) : (s.emit frame).draws = s.draws := rfl

/-! the end of a step: `State.endOfStep`. -/

@[simp] theorem State.endOfStep_identifier (d : DiagVec) (s : State) : (s.endOfStep d).identifier = s.identifier := rfl
@[simp] theorem State.endOfStep_declaredLength (d : DiagVec) (s : State) :
    (s.endOfStep d).declaredLength = s.declaredLength := rfl
@[simp] theorem State.endOfStep_payload (d : DiagVec) (s : State) : (s.endOfStep d).payload = s.payload := rfl
@[simp] theorem State.endOfStep_payloadLen (d : DiagVec) (s : State) : (s.endOfStep d).payloadLen = s.payloadLen := rfl
@[simp] theorem State.endOfStep_crc (d : DiagVec) (s : State) : (s.endOfStep d).crc = s.crc := rfl
@[simp] theorem State.endOfStep_idSeen (d : DiagVec) (s : State) : (s.endOfStep d).idSeen = s.idSeen := rfl
@[simp] theorem State.endOfStep_phase (d : DiagVec) (s : State) : (s.endOfStep d).phase = s.phase := rfl
@[simp] theorem State.endOfStep_outRec (d : DiagVec) (s : State) : (s.endOfStep d).outRec = s.outRec := rfl
@[simp] theorem State.endOfStep_outFrame (d : DiagVec) (s : State) : (s.endOfStep d).outFrame = s.outFrame := rfl
@[simp] theorem State.endOfStep_framesEmitted (d : DiagVec) (s : State) : (s.endOfStep d).framesEmitted = s.framesEmitted := rfl
@[simp] theorem State.endOfStep_malformedCount (d : DiagVec) (s : State) :
    (s.endOfStep d).malformedCount = if isMalformed d then wrapAdd s.params.cntW s.malformedCount 1 else s.malformedCount := rfl
@[simp] theorem State.endOfStep_overflowCount (d : DiagVec) (s : State) :
    (s.endOfStep d).overflowCount = if isOverflow d then wrapAdd s.params.cntW s.overflowCount 1 else s.overflowCount := rfl
@[simp] theorem State.endOfStep_txErrCount (d : DiagVec) (s : State) :
    (s.endOfStep d).txErrCount = if isTxErr d then wrapAdd s.params.cntW s.txErrCount 1 else s.txErrCount := rfl
@[simp] theorem State.endOfStep_diag (d : DiagVec) (s : State) : (s.endOfStep d).diag = d := rfl
@[simp] theorem State.endOfStep_params (d : DiagVec) (s : State) : (s.endOfStep d).params = s.params := rfl
@[simp] theorem State.endOfStep_inputs (d : DiagVec) (s : State) : (s.endOfStep d).inputs = s.inputs := rfl
@[simp] theorem State.endOfStep_draws (d : DiagVec) (s : State) : (s.endOfStep d).draws = s.draws := rfl

/-! Reset: `State.toReset`. -/

@[simp] theorem State.toReset_identifier (s : State) : (s.toReset).identifier = 0 := rfl
@[simp] theorem State.toReset_declaredLength (s : State) : (s.toReset).declaredLength = 0 := rfl
@[simp] theorem State.toReset_payload (s : State) : (s.toReset).payload = [] := rfl
@[simp] theorem State.toReset_payloadLen (s : State) : (s.toReset).payloadLen = 0 := rfl
@[simp] theorem State.toReset_crc (s : State) : (s.toReset).crc = 0 := rfl
@[simp] theorem State.toReset_idSeen (s : State) : (s.toReset).idSeen = false := rfl
@[simp] theorem State.toReset_phase (s : State) : (s.toReset).phase = .idle := rfl
@[simp] theorem State.toReset_framesEmitted (s : State) : (s.toReset).framesEmitted = 0 := rfl
@[simp] theorem State.toReset_malformedCount (s : State) : (s.toReset).malformedCount = 0 := rfl
@[simp] theorem State.toReset_overflowCount (s : State) : (s.toReset).overflowCount = 0 := rfl
@[simp] theorem State.toReset_txErrCount (s : State) : (s.toReset).txErrCount = 0 := rfl
@[simp] theorem State.toReset_diag (s : State) : (s.toReset).diag = 0 := rfl
@[simp] theorem State.toReset_params (s : State) : (s.toReset).params = s.params := rfl
@[simp] theorem State.toReset_inputs (s : State) : (s.toReset).inputs = s.inputs := rfl
@[simp] theorem State.toReset_draws (s : State) : (s.toReset).draws = s.draws := rfl

/-! Taking the input values: `State.sampled`. -/

@[simp] theorem State.sampled_identifier (s : State) : s.sampled.identifier = s.identifier := by unfold State.sampled; split <;> rfl
@[simp] theorem State.sampled_declaredLength (s : State) : s.sampled.declaredLength = s.declaredLength := by unfold State.sampled; split <;> rfl
@[simp] theorem State.sampled_payload (s : State) : s.sampled.payload = s.payload := by unfold State.sampled; split <;> rfl
@[simp] theorem State.sampled_payloadLen (s : State) : s.sampled.payloadLen = s.payloadLen := by unfold State.sampled; split <;> rfl
@[simp] theorem State.sampled_crc (s : State) : s.sampled.crc = s.crc := by unfold State.sampled; split <;> rfl
@[simp] theorem State.sampled_idSeen (s : State) : s.sampled.idSeen = s.idSeen := by unfold State.sampled; split <;> rfl
@[simp] theorem State.sampled_phase (s : State) : s.sampled.phase = s.phase := by unfold State.sampled; split <;> rfl
@[simp] theorem State.sampled_outRec (s : State) : s.sampled.outRec = s.outRec := by unfold State.sampled; split <;> rfl
@[simp] theorem State.sampled_outFrame (s : State) : s.sampled.outFrame = s.outFrame := by unfold State.sampled; split <;> rfl
@[simp] theorem State.sampled_framesEmitted (s : State) : s.sampled.framesEmitted = s.framesEmitted := by unfold State.sampled; split <;> rfl
@[simp] theorem State.sampled_malformedCount (s : State) : s.sampled.malformedCount = s.malformedCount := by unfold State.sampled; split <;> rfl
@[simp] theorem State.sampled_overflowCount (s : State) : s.sampled.overflowCount = s.overflowCount := by unfold State.sampled; split <;> rfl
@[simp] theorem State.sampled_txErrCount (s : State) : s.sampled.txErrCount = s.txErrCount := by unfold State.sampled; split <;> rfl
@[simp] theorem State.sampled_diag (s : State) : s.sampled.diag = s.diag := by unfold State.sampled; split <;> rfl
@[simp] theorem State.sampled_params (s : State) : s.sampled.params = s.params := by unfold State.sampled; split <;> rfl

theorem State.inputsNow_cons (s : State) (now : Inputs) (later : List Inputs) :
    ({ s with inputs := now :: later } : State).inputsNow = now := rfl

theorem State.sampled_cons (s : State) (now : Inputs) (later : List Inputs) :
    ({ s with inputs := now :: later } : State).sampled = { s with inputs := later } := rfl

end Sys2Proof.Machine
end

