-- ==== Sys2Proof/Laws/Ops.lean ====
section
/-! SUPPORT. What each shared operation can do, said once: the handshake, the end of a step, the counters' arithmetic, the
payload's append, and the kinds of step. -/

namespace Sys2Proof.Machine

/-! ## The handshake -/

theorem accept_of_idle {s : State} (h : s.phase = .idle) (accepted : State) : accept s accepted = .next accepted := by
  unfold accept; rw [h]

theorem accept_of_send {s : State} (h : s.phase = .send) (accepted : State) : accept s accepted = .next s.hold := by
  unfold accept; rw [h]

/-- Presenting an event always answers a next state: the accepted one in IDLE, the held one in SEND. -/
theorem accept_cases {s accepted t : State} (h : accept s accepted = .next t) :
    (s.phase = .idle ∧ t = accepted) ∨ (s.phase = .send ∧ t = s.hold) := by
  cases hp : s.phase with
  | idle => rw [accept_of_idle hp] at h; exact .inl ⟨rfl, by injection h with h; exact h.symm⟩
  | send => rw [accept_of_send hp] at h; exact .inr ⟨rfl, by injection h with h; exact h.symm⟩

/-- What an accepted event leaves, written as one function of the event: each meaning is `accept` of it. -/
def accepted (i : Instr) (s : State) : State :=
  match i with
  | .ident identifier isExtended isRemote =>
      (s.newFrame (assembleIdentifier s.params.idHighBits identifier isExtended isRemote)).endOfStep 0
  | .control len => (s.setDeclaredLength len).endOfStep (controlDiag len s)
  | .data bytes => (s.appendBytes bytes).endOfStep (noIdDiag s)
  | .dataRsv _ => s.endOfStep (dataRsvDiag s)
  | .crc crc => (s.setCrc crc).endOfStep (noIdDiag s)
  | .ack => (s.countFrame.emit (snapshot s)).endOfStep (ackDiag s)
  | .ignored _ => s.endOfStep 0

theorem exec_eq_accept (i : Instr) (s : State) : exec i s = accept s (accepted i s) := by
  cases i <;> rfl

/-- Everything presenting an event can do. -/
theorem exec_cases {i : Instr} {s t : State} (h : exec i s = .next t) :
    (s.phase = .idle ∧ t = accepted i s) ∨ (s.phase = .send ∧ t = s.hold) :=
  accept_cases (exec_eq_accept i s ▸ h)

/-! ## The end of a step -/

@[simp] theorem State.hold_eq (s : State) : s.hold = { s with diag := 0 } := rfl

theorem State.endOfStep_zero (s : State) : s.endOfStep 0 = { s with diag := 0 } := rfl

theorem State.complete_eq (status : SinkStatus) (s : State) :
    s.complete status = { s with
      phase := .idle
      diag := completeDiag status
      txErrCount := if status = .err then wrapAdd s.params.cntW s.txErrCount 1 else s.txErrCount } := by
  cases status <;> rfl

/-! ## The counters' arithmetic -/

theorem wrapAdd_lt (width a b : Nat) : wrapAdd width a b < 2 ^ width := Nat.mod_lt _ (Nat.two_pow_pos width)

theorem wrapAdd_one_twice (width a : Nat) : wrapAdd width (wrapAdd width a 1) 1 = (a + 2) % 2 ^ width := by
  simp [wrapAdd, Nat.mod_add_mod, Nat.add_assoc]

theorem withinBound_clip (b : Bound) (n : Nat) : withinBound b (clip b n) = true := by
  cases b <;> simp [withinBound, clip]

theorem clip_clip_add (b : Bound) (m n : Nat) : clip b (clip b m + n) = clip b (m + n) := by
  cases b <;> simp only [clip]; omega

/-- Saturating addition adds chunk by chunk (R66). -/
theorem satAdd_satAdd (width : Bound) (a b c : Nat) :
    satAdd width (satAdd width a b) c = satAdd width a (b + c) := by
  simp [satAdd, clip_clip_add, Nat.add_assoc]

theorem satAdd_within (width : Bound) (a b : Nat) : withinBound (maxOfWidth width) (satAdd width a b) = true :=
  withinBound_clip _ _

/-! ## The payload -/

theorem takeBound_length (b : Bound) (bytes : List Byte) : (takeBound b bytes).length = clip b bytes.length := by
  cases b <;> simp [takeBound, clip]; omega

theorem takeBound_append (cap : Bound) (a b : List Byte) :
    takeBound cap (takeBound cap a ++ b) = takeBound cap (a ++ b) := by
  cases cap with
  | inf => rfl
  | finite c =>
    simp only [takeBound]
    by_cases h : a.length ≤ c
    · rw [List.take_of_length_le h]
    · have hc : c ≤ a.length := by omega
      rw [List.take_append_of_le_length hc, List.take_append_of_le_length (by simp [hc]), List.take_take, Nat.min_self]

/-- Appending in two parts is appending at once (R66). -/
theorem appendView_appendView (cap : Bound) (view a b : List Byte) :
    appendView cap (appendView cap view a) b = appendView cap view (a ++ b) := by
  simp only [appendView, takeBound_append, List.append_assoc]

/-- The append keeps R34(a): the view's length is the counted length, clipped to the buffer. -/
theorem appendView_length {p : Params} (legal : legalParams p = true) {view : List Byte} {len : Nat}
    (h : view.length = clip p.payloadCap len) (bytes : List Byte) :
    (appendView p.payloadCap view bytes).length = clip p.payloadCap (satAdd p.lenW len bytes.length) := by
  rw [appendView, takeBound_length, List.length_append, h, clip_clip_add]
  simp only [legalParams, Bool.and_eq_true] at legal
  have hcap := legal.2
  cases hc : p.payloadCap with
  | inf =>
    simp only [hc, decide_eq_true_eq] at hcap
    simp [hcap, satAdd, maxOfWidth, clip]
  | finite c =>
    rw [hc] at hcap
    cases hw : p.lenW with
    | inf => simp [satAdd, maxOfWidth, clip]
    | finite w =>
      simp only [hw, maxOfWidth, withinBound, decide_eq_true_eq] at hcap
      simp only [satAdd, maxOfWidth, clip]
      omega

/-! ## The kinds of step -/

theorem stepKind_reset {s : State} {now : Inputs} : stepKind s now = .reset ↔ now.rst = true := by
  unfold stepKind; split <;> [simp_all; (split <;> [simp_all; (split <;> simp_all)])]

theorem stepKind_accept {s : State} {now : Inputs} {w : EventWord} :
    stepKind s now = .accept w ↔ now.rst = false ∧ s.phase = .idle ∧ now.evValid = true ∧ now.evWord = w := by
  unfold stepKind evReady outValid
  cases now.rst <;> cases now.evValid <;> cases now.outReady <;> cases s.phase <;> simp

theorem stepKind_complete {s : State} {now : Inputs} {status : SinkStatus} :
    stepKind s now = .complete status ↔
      now.rst = false ∧ s.phase = .send ∧ now.outReady = true ∧ now.sinkStatus = status := by
  unfold stepKind evReady outValid
  cases now.rst <;> cases now.evValid <;> cases now.outReady <;> cases s.phase <;> simp

theorem stepKind_idle {s : State} {now : Inputs} :
    stepKind s now = .idle ↔ now.rst = false ∧
      ((s.phase = .idle ∧ now.evValid = false) ∨ (s.phase = .send ∧ now.outReady = false)) := by
  unfold stepKind evReady outValid
  cases now.rst <;> cases now.evValid <;> cases now.outReady <;> cases s.phase <;> simp

/-- Everything a step can do. -/
theorem step_cases {s t : State} (h : step s = .next t) :
    (stepKind s s.inputsNow = .reset ∧ t = s.sampled.toReset) ∨
    (∃ w, stepKind s s.inputsNow = .accept w ∧ s.phase = .idle ∧ t = accepted (decode w) s.sampled) ∨
    (∃ status, stepKind s s.inputsNow = .complete status ∧ s.phase = .send ∧ t = s.sampled.complete status) ∨
    (stepKind s s.inputsNow = .idle ∧ t = s.sampled.hold) := by
  unfold step at h
  split at h
  · injection h with h; exact .inl ⟨‹_›, h.symm⟩
  · rename_i w hk
    have hp := (stepKind_accept.mp hk).2.1
    rw [exec_eq_accept, accept_of_idle (by simpa using hp)] at h
    injection h with h
    exact .inr (.inl ⟨w, hk, hp, h.symm⟩)
  · rename_i status hk
    injection h with h
    exact .inr (.inr (.inl ⟨status, hk, (stepKind_complete.mp hk).2.1, h.symm⟩))
  · injection h with h; exact .inr (.inr (.inr ⟨‹_›, h.symm⟩))

end Sys2Proof.Machine
end

