-- ==== Sys2Proof/Laws/PerInstr.lean ====
section
/-! SUPPORT. The statement made per instruction: the encoder writes each event's kind code of spec/30_encoding.md R54 in bits
`[7:0]`. -/

namespace Sys2Proof.Laws

/-- The kind code R54 gives an event. -/
def kindCode : Instr → Byte
  | .ident _ _ _ => 0x01
  | .control _ => 0x02
  | .data _ => 0x03
  | .dataRsv _ => 0x03
  | .crc _ => 0x04
  | .ack => 0x05
  | .ignored kind => kind

/-- The word of the event carries its kind code. -/
def KindByte.Statement (i : Instr) : Prop := wordKind (encode i) = kindCode i

/-- Whatever stands above it, the last byte appended is the kind. -/
theorem wordKind_append {n : Nat} (high : BitVec n) (kind : Byte) : (high ++ kind).extractLsb' 0 8 = kind := by
  apply BitVec.eq_of_getLsbD_eq
  intro i hi
  simp [BitVec.getLsbD_append, hi]

theorem KindByte.ident (identifier : Word) (isExtended isRemote : Bool) :
    KindByte.Statement (.ident identifier isExtended isRemote) := wordKind_append _ _

theorem KindByte.control (declaredLength : Byte) : KindByte.Statement (.control declaredLength) := wordKind_append _ _

theorem KindByte.data (bytes : List Byte) : KindByte.Statement (.data bytes) := wordKind_append _ _

theorem KindByte.dataRsv (count : BitVec 4) : KindByte.Statement (.dataRsv count) := wordKind_append _ _

theorem KindByte.crc (crc : Word) : KindByte.Statement (.crc crc) := wordKind_append _ _

theorem KindByte.ack : KindByte.Statement .ack := wordKind_append _ _

theorem KindByte.ignored (kind : Byte) : KindByte.Statement (.ignored kind) := wordKind_append _ _

end Sys2Proof.Laws
end

