-- ==== Sys2Proof/Tests/Slice0.lean ====
section
/-! SUPPORT. The model's own tests. Expected values come from spec/95_test_vectors.md (V1 to V33) and the examples in the rules; each
test names its source. Then one witness for the hypotheses of each statement that has some. -/

namespace Sys2Proof.Tests

open Sys2Proof.Machine

/-! ## Helpers -/

/-- The next state, if the outcome is one. -/
def nextOf : Host.Outcome State Fault Refusal → Option State
  | .next t => some t
  | .fault _ => none
  | .refused _ => none

/-- The state after `IDENT id=0x123` from reset. -/
def framed : State := { State.reset with identifier := 0x123, idSeen := true }

/-- `framed` after `CTRL len=3`, `DATA [0xAA]`, `DATA [0xBB, 0xCC]`, `CRC crc=0x55` (V1 before its ACK). -/
def loaded : State :=
  { framed with declaredLength := 3, payload := [0xAA, 0xBB, 0xCC], payloadLen := 3, crc := 0x55 }

/-- A block in SEND with the record of V27's `IDENT id=0x1`, `ACK`. -/
def sending : State :=
  { State.reset with
    identifier := 0x1, idSeen := true, phase := .send, framesEmitted := 1
    outRec := 0x1, outFrame := { identifier := 0x1, declaredLength := 0, crc := 0, payloadLen := 0, payload := [] } }

/-- `framed` with ten payload bytes taken (V9 before its ACK). -/
def oversize : State :=
  { framed with payload := [1, 2, 3, 4, 5, 6, 7, 8], payloadLen := 10 }

/-- Pins with `rst` high and everything else offered. -/
def resetPins : Inputs := { rst := true, evValid := true, evWord := 0x901, outReady := true, sinkStatus := .err }

/-- Pins of a sink that takes the record. -/
def takePins (status : SinkStatus) : Inputs :=
  { rst := false, evValid := false, evWord := 0, outReady := true, sinkStatus := status }

/-! ## Well-formedness: an ill-formed term for each check -/

theorem test_wf_data_nine_bytes : ¬ (Instr.data [1, 2, 3, 4, 5, 6, 7, 8, 9]).WellFormed := by decide
theorem test_wf_reserved_count_eight : ¬ (Instr.dataRsv 8).WellFormed := by decide
theorem test_wf_ignored_defined_kinds :
    ¬ (Instr.ignored 0x01).WellFormed ∧ ¬ (Instr.ignored 0x03).WellFormed ∧ ¬ (Instr.ignored 0x05).WellFormed := by decide
theorem test_wf_boundaries :
    (Instr.data [1, 2, 3, 4, 5, 6, 7, 8]).WellFormed ∧ (Instr.dataRsv 9).WellFormed ∧ (Instr.ignored 0x00).WellFormed ∧
    (Instr.ignored 0x06).WellFormed ∧ (Instr.ignored 0xFF).WellFormed := by decide

/-! ## Decoding: words written out from R55 to R61 (R68's examples and the vectors named) -/

theorem test_decode_ident : decode 0x00000000000000012301 = .ident 0x123 false false := by decide
theorem test_decode_ident_ext : decode 0x000000000118DAF11001 = .ident 0x18DAF110 true false := by decide
theorem test_decode_ident_rtr : decode 0x00000000020000012301 = .ident 0x123 false true := by decide
/-- V24: every ignored bit set. -/
theorem test_decode_ident_ignored_bits : decode 0xFFFFFFFFFC0000012301 = .ident 0x123 false false := by decide
theorem test_decode_control : decode 0x00000000000000000302 = .control 3 := by decide
theorem test_decode_data_one : decode 0x00000000000000AA0103 = .data [0xAA] := by decide
theorem test_decode_data_two : decode 0x000000000000CCBB0203 = .data [0xBB, 0xCC] := by decide
theorem test_decode_data_eight : decode 0x08070605040302010803 = .data [1, 2, 3, 4, 5, 6, 7, 8] := by decide
theorem test_decode_data_none : decode 0x00000000000000000003 = .data [] := by decide
/-- V25: junk in bits [15:12] and in the unused lanes. -/
theorem test_decode_data_ignored_bits : decode 0xFFFFFFFFFFFFFFAAF103 = .data [0xAA] := by decide
theorem test_decode_reserved : decode 0x00000000000000000903 = .dataRsv 9 ∧ decode 0x00000000000000000F03 = .dataRsv 15 := by
  decide
theorem test_decode_crc : decode 0x00000000000000005504 = .crc 0x55 := by decide
theorem test_decode_ack : decode 0x00000000000000000005 = .ack := by decide
theorem test_decode_ignored : decode 0x000000000000123456FF = .ignored 0xFF ∧ decode 0 = .ignored 0 := by decide
/-- The encoder against R68's written-out words. -/
theorem test_encode_written_words :
    encode (.ident 0x18DAF110 true false) = 0x000000000118DAF11001 ∧ encode (.control 3) = 0x00000000000000000302 ∧
    encode (.data [0xBB, 0xCC]) = 0x000000000000CCBB0203 ∧ encode (.dataRsv 9) = 0x00000000000000000903 ∧
    encode (.crc 0x55) = 0x00000000000000005504 ∧ encode .ack = 0x00000000000000000005 ∧
    encode (.ignored 0x42) = 0x00000000000000000042 := by decide
/-- Each row of the opcode table, by a word of it: its pattern decodes to its mnemonic. -/
theorem test_decode_table_rows :
    opcodeRows.all (fun r => (decode r.pattern).mnemonic == r.mnemonic) = true := by decide
theorem test_decode_table_word :
    decodeTableWord 80 0x000000000000CCBB0203 = some (.data [0xBB, 0xCC]) ∧ decodeTableWord 81 0 = none := by decide

/-! ## One step of each event -/

/-- R69's example; V6: high operand bits with KEEP, and with CLEAR. -/
theorem test_ident_flags :
    (nextOf (exec (.ident 0x123 true false) State.reset)).map (fun t => (t.identifier, t.payloadLen, t.idSeen, t.diag)) =
      some (0x80000123, 0, true, 0) ∧
    (nextOf (exec (.ident 0xC0000123 false false) State.reset)).map State.identifier = some 0xC0000123 ∧
    (nextOf (exec (.ident 0xC0000123 true false)
      { State.reset with params := { Config.thisHardware with idHighBits := .clear } })).map State.identifier =
      some 0x80000123 := by decide
/-- V11: the payload is cleared, the length and the CRC leak forward. -/
theorem test_ident_leaks :
    (nextOf (exec (.ident 0x2 false false) loaded)).map (fun t => (t.payload, t.payloadLen, t.declaredLength, t.crc)) =
      some ([], 0, 3, 0x55) := by decide
/-- V12: stored verbatim, LEN_RANGE. -/
theorem test_control_out_of_range :
    (nextOf (exec (.control 255) framed)).map (fun t => (t.declaredLength, t.diag, t.malformedCount)) =
      some (255, 0b00001, 1) := by decide
/-- V13 and V13b: both bits, one count; 8 is in range. -/
theorem test_control_no_id :
    (nextOf (exec (.control 9) State.reset)).map (fun t => (t.declaredLength, t.diag, t.malformedCount)) =
      some (9, 0b00011, 1) ∧
    (nextOf (exec (.control 8) framed)).map (fun t => (t.declaredLength, t.diag)) = some (8, 0b00000) := by decide
/-- R73's example. -/
theorem test_data_appends :
    (nextOf (exec (.data [0xBB, 0xCC]) { framed with payload := [0xAA], payloadLen := 1 })).map
      (fun t => (t.payload, t.payloadLen, t.diag)) = some ([0xAA, 0xBB, 0xCC], 3, 0b00000) := by decide
/-- V26's second DATA: past the cap, counted and not stored, NO_ID; V29: `LEN_W = 4` saturates at 15; V32: `PAYLOAD_CAP = inf`
retains every byte. -/
theorem test_data_cap_and_saturation :
    (nextOf (exec (.data [9]) { State.reset with payload := [1, 2, 3, 4, 5, 6, 7, 8], payloadLen := 8 })).map
      (fun t => (t.payload, t.payloadLen, t.diag, t.malformedCount)) = some ([1, 2, 3, 4, 5, 6, 7, 8], 9, 0b00010, 1) ∧
    (nextOf (exec (.data [2, 2, 2, 2, 2, 2, 2, 2])
      { oversize with payloadLen := 8, params := { Config.thisHardware with lenW := .finite 4 } })).map State.payloadLen =
      some 15 ∧
    (nextOf (exec (.data [9, 10])
      { oversize with payloadLen := 8, params := { Config.thisHardware with payloadCap := .inf } })).map State.payload =
      some [1, 2, 3, 4, 5, 6, 7, 8, 9, 10] := by decide
/-- V19b: two bits, one count. -/
theorem test_reserved_no_id :
    (nextOf (exec (.dataRsv 12) State.reset)).map (fun t => (t.diag, t.malformedCount, t.payloadLen)) =
      some (0b00110, 1, 0) := by decide
/-- V19: nothing appended after an IDENT. -/
theorem test_reserved_appends_nothing :
    (nextOf (exec (.dataRsv 9) loaded)).map (fun t => (t.diag, t.payload, t.payloadLen)) =
      some (0b00100, [0xAA, 0xBB, 0xCC], 3) := by decide
/-- V20: stored unmasked. -/
theorem test_crc_unmasked :
    (nextOf (exec (.crc 0xFFFFFFFF) framed)).map (fun t => (t.crc, t.diag)) = some (0xFFFFFFFF, 0b00000) := by decide
/-- V20c. -/
theorem test_crc_no_id :
    (nextOf (exec (.crc 0x99) State.reset)).map (fun t => (t.crc, t.diag, t.malformedCount)) = some (0x99, 0b00010, 1) := by
  decide
/-- V1: the document's record, its byte 0 lowest, and the CanFrame. -/
theorem test_ack_document_example :
    (nextOf (exec .ack loaded)).map (fun t => (t.outRec, t.outFrame, t.phase, t.framesEmitted, t.diag)) =
      some (0x0000000000CCBBAA0000000300000123, ⟨0x123, 3, 0x55, 3, [0xAA, 0xBB, 0xCC]⟩, .send, 1, 0b00000) := by decide
/-- V9: overflow, truncated to the first 8 bytes. -/
theorem test_ack_overflow :
    (nextOf (exec .ack { oversize with identifier := 0x40000123 })).map
      (fun t => (t.outRec, t.diag, t.overflowCount, t.outFrame.payloadLen)) =
      some (0x08070605040302010000000840000123, 0b01000, 1, 10) := by decide
/-- V23b: nothing changes. -/
theorem test_ignored_nothing : nextOf (exec (.ignored 0x42) State.reset) = some State.reset := by decide
/-- V27: an event offered in SEND is not consumed. -/
theorem test_event_in_send_not_consumed : nextOf (exec (.ident 0x9 false false) sending) = some sending := by decide

/-! ## Steps -/

/-- V14 through the event port: ACK as the first event after Reset. -/
theorem test_step_ack_after_reset :
    (nextOf (step (State.reset.withFetchWord 80 0x00000000000000000005))).map
      (fun t => (t.outRec, t.diag, t.phase, t.framesEmitted, t.malformedCount)) = some (0, 0b00010, .send, 1, 1) := by decide
/-- V10's step 4: Complete ERR drops the record. -/
theorem test_step_complete_err :
    (nextOf (step { sending with inputs := [takePins .err] })).map (fun t => (t.phase, t.diag, t.txErrCount, t.framesEmitted)) =
      some (.idle, 0b10000, 1, 1) := by decide
/-- V27's last step: Complete OK. -/
theorem test_step_complete_ok :
    (nextOf (step { sending with inputs := [takePins .ok] })).map (fun t => (t.phase, t.diag, t.txErrCount)) =
      some (.idle, 0b00000, 0) := by decide
/-- V28: Reset in SEND with `out_ready = 1`: no transfer, and the reset state. -/
theorem test_step_reset_in_send :
    nextOf (step { sending with inputs := [resetPins] }) = some State.reset ∧
    transferOf { sending with inputs := [resetPins] } = none := by decide
/-- V27: a stalled sink; the ports. -/
theorem test_step_stall :
    nextOf (step { sending with inputs := [presentWord 0x901] }) = some sending ∧
    (outputs sending false).outValid = true ∧ (outputs sending false).evReady = false ∧
    (outputs sending false).outRec = some 0x1 := by decide
/-- V30: `CNT_W = 2` wraps from 3 to 0. -/
theorem test_frame_count_wraps :
    (nextOf (exec .ack { loaded with framesEmitted := 3, params := { Config.thisHardware with cntW := 2 } })).map
      State.framesEmitted = some 0 := by decide
/-- V10's step 4 as a transfer (R15). -/
theorem test_transfer :
    transferOf { sending with inputs := [takePins .err] } = some ⟨0x1, ⟨0x1, 0, 0, 0, 0, []⟩, .err⟩ ∧
    (observe 1 { sending with inputs := [takePins .err] }).transfers.length = 1 ∧
    (observe 1 { sending with inputs := [takePins .err] }).diags = [0b10000] ∧
    runEnded { sending with phase := .idle } = true ∧ runEnded sending = false := by decide
/-- V9's pseudo-event, and P1's FRAME with its words (R65, R68). -/
theorem test_upstream_words :
    (FieldEvent.dataField [1, 2, 3, 4, 5, 6, 7, 8, 9, 10]).words = [0x08070605040302010803, 0x0000000000000A090203] ∧
    (TextLine.frame 0x123 false false 3 [0xAA] 0x55).words =
      [0x00000000000000012301, 0x00000000000000000302, 0x00000000000000AA0103, 0x00000000000000005504,
       0x00000000000000000005] ∧
    (FieldEvent.dataField []).words = [0x00000000000000000003] := by decide

/-- R68's lines `IDENT id=0x123 ext` and `DATA [0xBB, 0xCC]`, in decimal. -/
theorem test_text_lines :
    (TextLine.ident 0x123 true false).text = "IDENT id=291 ext" ∧ (TextLine.data [0xBB, 0xCC]).text = "DATA [187, 204]" := by
  decide

/-! ## Witnesses: states and operands that meet each statement's hypotheses -/

/-- `DecodeEncodeRoundTrip`, at the boundaries of each range. -/
theorem witness_DecodeEncodeRoundTrip :
    (Instr.data []).WellFormed ∧ (Instr.data [1, 2, 3, 4, 5, 6, 7, 8]).WellFormed ∧ (Instr.dataRsv 15).WellFormed ∧
    (Instr.ignored 0xFF).WellFormed ∧ (Instr.ident 0xFFFFFFFF true true).WellFormed := by decide
/-- `IgnoredBitsHaveNoEffect`: V24's word and the same without its ignored bits; V25's likewise. -/
theorem witness_IgnoredBitsHaveNoEffect :
    (0x00000000000000012301 : EventWord) &&& namedBits 0x00000000000000012301 =
      0xFFFFFFFFFC0000012301 &&& namedBits 0x00000000000000012301 ∧
    (0x00000000000000AA0103 : EventWord) &&& namedBits 0x00000000000000AA0103 =
      0xFFFFFFFFFFFFFFAAF103 &&& namedBits 0x00000000000000AA0103 := by decide
/-- `IdentStartsFrame`, `ControlStoresLength`, `CrcStoresValue`, `AckEmitsSnapshot`, and the IDLE clauses of the register rules. -/
theorem witness_idle : State.reset.phase = .idle ∧ framed.phase = .idle ∧ loaded.phase = .idle := by decide
/-- `IdentStartsFrame` and `IdentifierRegisterBits`, the CLEAR clause. -/
theorem witness_clear :
    ({ State.reset with params := { Config.thisHardware with idHighBits := .clear } } : State).phase = .idle ∧
    ({ State.reset with params := { Config.thisHardware with idHighBits := .clear } } : State).params.idHighBits = .clear ∧
    State.reset.params.idHighBits = .keep := by decide
/-- `DataAppendsBytes`, at count 0 and 8. -/
theorem witness_DataAppendsBytes :
    ([] : List Byte).length ≤ 8 ∧ ([1, 2, 3, 4, 5, 6, 7, 8] : List Byte).length ≤ 8 ∧ framed.phase = .idle := by decide
/-- `ReservedCountAppendsNothing`, at 9 and 15. -/
theorem witness_ReservedCountAppendsNothing :
    9 ≤ (9 : BitVec 4).toNat ∧ 9 ≤ (15 : BitVec 4).toNat ∧ State.reset.phase = .idle := by decide
/-- `IgnoredKindChangesNothing`, at each end of its ranges. -/
theorem witness_IgnoredKindChangesNothing :
    ((0x00 : Byte) = 0x00 ∨ 0x06 ≤ (0x00 : Byte).toNat) ∧ ((0x06 : Byte) = 0x00 ∨ 0x06 ≤ (0x06 : Byte).toNat) ∧
    ((0xFF : Byte) = 0x00 ∨ 0x06 ≤ (0xFF : Byte).toNat) ∧ State.reset.phase = .idle := by decide
/-- `IdentifierRegisterBits`: a step that changes the identifier. -/
theorem witness_identifier_written :
    ∃ t, step (State.reset.withFetchWord 80 0x00000000000000012301) = .next t ∧
      t.identifier ≠ (State.reset.withFetchWord 80 0x00000000000000012301).identifier := ⟨_, rfl, by decide⟩
/-- `DeclaredLengthRegisterRule`: a step that changes the length. -/
theorem witness_length_written :
    ∃ t, step (State.reset.withFetchWord 80 0x00000000000000000302) = .next t ∧
      t.declaredLength ≠ (State.reset.withFetchWord 80 0x00000000000000000302).declaredLength := ⟨_, rfl, by decide⟩
/-- `CrcRegisterRule`: a step that changes the CRC. -/
theorem witness_crc_written :
    ∃ t, step (State.reset.withFetchWord 80 0x00000000000000005504) = .next t ∧
      t.crc ≠ (State.reset.withFetchWord 80 0x00000000000000005504).crc := ⟨_, rfl, by decide⟩
/-- `IdSeenFlagRule`, `EventTakenOnlyWhenReady`: an event presented in IDLE and one presented in SEND. -/
theorem witness_exec_next :
    (∃ t, exec .ack State.reset = .next t ∧ t.phase = .send) ∧ (∃ t, exec .ack sending = .next t ∧ t = sending) ∧
    sending.phase = .send := ⟨⟨_, rfl, by decide⟩, ⟨_, rfl, by decide⟩, by decide⟩
/-- `PhaseTransitions`, `WriteMatrix`, `DiagnosticConditions`, `CountersFollowDiagnostics`, `FramesCountAcceptedAcks`,
`DiagnosticCombinations`, `CountersDecideNothing`, `ParametersNeverChange`: a step of each kind, an Accept of an ACK among them. -/
theorem witness_step_kinds :
    (∃ t, step (loaded.withFetchWord 80 0x5) = .next t ∧
      stepKind (loaded.withFetchWord 80 0x5) (loaded.withFetchWord 80 0x5).inputsNow = .accept 0x5 ∧ decode 0x5 = .ack) ∧
    (∃ t, step (loaded.withFetchWord 80 0x302) = .next t ∧
      stepKind (loaded.withFetchWord 80 0x302) (loaded.withFetchWord 80 0x302).inputsNow = .accept 0x302 ∧
      decode 0x302 ≠ .ack) ∧
    (∃ t, step { sending with inputs := [takePins .err] } = .next t ∧
      stepKind sending (takePins .err) = .complete .err) ∧
    (∃ t, step { sending with inputs := [resetPins] } = .next t ∧ stepKind sending resetPins = .reset) ∧
    (∃ t, step { sending with inputs := [presentWord 0x5] } = .next t ∧ stepKind sending (presentWord 0x5) = .idle) :=
  ⟨⟨_, rfl, by decide⟩, ⟨_, rfl, by decide⟩, ⟨_, rfl, by decide⟩, ⟨_, rfl, by decide⟩, ⟨_, rfl, by decide⟩⟩
/-- `WriteMatrix`: a step of each event kind that `witness_step_kinds` leaves out. -/
theorem witness_WriteMatrix_arms :
    (∃ t, step (loaded.withFetchWord 80 0x101) = .next t ∧
      stepKind loaded (loaded.withFetchWord 80 0x101).inputsNow = .accept 0x101 ∧ decode 0x101 = .ident 0x1 false false) ∧
    (∃ t, step (loaded.withFetchWord 80 0xAA0103) = .next t ∧
      stepKind loaded (loaded.withFetchWord 80 0xAA0103).inputsNow = .accept 0xAA0103 ∧ decode 0xAA0103 = .data [0xAA]) ∧
    (∃ t, step (loaded.withFetchWord 80 0x903) = .next t ∧
      stepKind loaded (loaded.withFetchWord 80 0x903).inputsNow = .accept 0x903 ∧ decode 0x903 = .dataRsv 9) ∧
    (∃ t, step (loaded.withFetchWord 80 0x5504) = .next t ∧
      stepKind loaded (loaded.withFetchWord 80 0x5504).inputsNow = .accept 0x5504 ∧ decode 0x5504 = .crc 0x55) ∧
    (∃ t, step (loaded.withFetchWord 80 0x42) = .next t ∧
      stepKind loaded (loaded.withFetchWord 80 0x42).inputsNow = .accept 0x42 ∧ decode 0x42 = .ignored 0x42) :=
  ⟨⟨_, rfl, by decide⟩, ⟨_, rfl, by decide⟩, ⟨_, rfl, by decide⟩, ⟨_, rfl, by decide⟩, ⟨_, rfl, by decide⟩⟩
/-- `LengthAndCrcLeakForward`: a script of an IDENT, an ACK and a completion, with no CONTROL and no CRC. -/
theorem witness_LengthAndCrcLeakForward :
    ∃ (script later : List Inputs) (s : State), s.inputs = script ++ later ∧ (∀ now ∈ script, now.rst = false) ∧
      (∀ now ∈ script, ∀ len, decode now.evWord ≠ .control len) ∧ (∀ now ∈ script, ∀ crc, decode now.evWord ≠ .crc crc) ∧
      script.length = 3 := by
  refine ⟨[presentWord 0x101, presentWord 0x5, takePins .ok], [],
    { loaded with inputs := [presentWord 0x101, presentWord 0x5, takePins .ok] }, rfl, by decide, ?_, ?_, rfl⟩
  · intro now h len
    simp only [List.mem_cons, List.not_mem_nil, or_false] at h
    rcases h with rfl | rfl | rfl <;> simp [presentWord, takePins, decode, wordKind]
  · intro now h crc
    simp only [List.mem_cons, List.not_mem_nil, or_false] at h
    rcases h with rfl | rfl | rfl <;> simp [presentWord, takePins, decode, wordKind]
/-- `IdentForgetsPayload`: an IDENT on a loaded block. -/
theorem witness_IdentForgetsPayload :
    loaded.phase = .idle ∧ ∃ t, exec (.ident 0x2 false false) loaded = .next t ∧ t.payload = [] := ⟨rfl, _, rfl, rfl⟩
/-- `AppendByPosition`, with a stored position and, at the saturated end, one that is not. -/
theorem witness_AppendByPosition :
    loaded.Inv ∧ loaded.phase = .idle ∧ withinBound loaded.params.payloadCap (loaded.payloadLen + 4 + 1) = true ∧
    withinBound loaded.params.payloadCap (loaded.payloadLen + 5 + 1) = false ∧
    { oversize with payloadLen := 65535 }.Inv ∧ oversize.phase = .idle ∧
    maxOfWidth oversize.params.lenW = .finite 65535 := by decide
/-- `ChunksEqualOneAppend` and `UpstreamWordsDecode`. -/
theorem witness_upstream :
    framed.phase = .idle ∧ (∀ kind, FieldEvent.ackField = .other kind → kind = 0x00 ∨ 0x06 ≤ kind.toNat) ∧
    (∀ kind, FieldEvent.other 0x06 = .other kind → kind = 0x00 ∨ 0x06 ≤ kind.toNat) ∧
    0 + 1 < (dataChunks [1, 2, 3, 4, 5, 6, 7, 8, 9]).length := by
  refine ⟨rfl, fun kind h => by simp at h, fun kind h => ?_, by decide⟩
  injection h with h; subst h; decide
/-- `FramePayloadIsConcatenation`: a CONTROL, two DATA and a CRC between, filling the buffer to its last byte. -/
theorem witness_FramePayloadIsConcatenation :
    ∃ between : List Instr, (∀ i ∈ between, i ≠ .ack ∧ ∀ a b c, i ≠ .ident a b c) ∧
      withinBound State.reset.params.payloadCap (between.flatMap broughtBytes).length = true ∧
      (between.flatMap broughtBytes).length = 8 ∧ legalParams State.reset.params = true ∧ State.reset.phase = .idle := by
  refine ⟨[.control 8, .data [1, 2, 3, 4, 5], .dataRsv 9, .data [6, 7, 8], .crc 0x55], ?_, by decide, by decide, by decide, rfl⟩
  intro i h
  simp only [List.mem_cons, List.not_mem_nil, or_false] at h
  rcases h with rfl | rfl | rfl | rfl | rfl <;> simp
/-- `RecordLayout`: a short frame, a full one and one past 8. -/
theorem witness_RecordLayout :
    min (snapshot loaded).payloadLen 8 ≤ (snapshot loaded).payload.length ∧
    min (snapshot oversize).payloadLen 8 ≤ (snapshot oversize).payload.length := by decide
/-- `RecordReadsOnlyItsFields`: two frames that differ in every other field and past the eighth byte. -/
theorem witness_RecordReadsOnlyItsFields :
    ∃ f g : CanFrame, f ≠ g ∧ f.identifier = g.identifier ∧ min f.payloadLen 8 = min g.payloadLen 8 ∧
      f.payload.take (min f.payloadLen 8) = g.payload.take (min g.payloadLen 8) :=
  ⟨⟨0x123, 3, 0x55, 9, [1, 2, 3, 4, 5, 6, 7, 8, 9]⟩, ⟨0x123, 4, 0x66, 10, [1, 2, 3, 4, 5, 6, 7, 8]⟩, by decide, rfl, rfl, rfl⟩
/-- `CapAndSaturationKeepRecord`: this hardware's parameters, the smallest legal ones and the unbounded ones. -/
theorem witness_legalParams :
    legalParams Config.thisHardware = true ∧ legalParams ⟨.finite 8, .finite 4, 1, .clear⟩ = true ∧
    legalParams ⟨.inf, .inf, 32, .keep⟩ = true ∧ legalParams ⟨.inf, .finite 16, 32, .keep⟩ = false ∧
    legalParams ⟨.finite 7, .finite 16, 32, .keep⟩ = false ∧ legalParams ⟨.finite 16, .finite 4, 32, .keep⟩ = false ∧
    legalParams ⟨.finite 8, .finite 16, 0, .keep⟩ = false := by decide
/-- `OverflowTruncatesAndReports`, at 9 and 10 bytes counted. -/
theorem witness_OverflowTruncatesAndReports :
    oversize.Inv ∧ oversize.phase = .idle ∧ 8 < oversize.payloadLen ∧ { oversize with payloadLen := 9 }.Inv := by decide
/-- `SinkErrorChangesNothingLater`, `SecondAckRepeatsRecord`: a completion out of SEND. -/
theorem witness_complete : sending.phase = .send ∧ (sending.complete .err).phase = .idle ∧ loaded.phase = .idle := by decide
/-- `StepRunsDecodedEvent`. -/
theorem witness_StepRunsDecodedEvent :
    (State.reset.withFetchWord 80 0x5).inputsNow.rst = false ∧ (State.reset.withFetchWord 80 0x5).inputsNow.evValid = true ∧
    (State.reset.withFetchWord 80 0x5).phase = .idle ∧
    (State.reset.withFetchWord 80 0x5).inputs = presentWord 0x5 :: [] ∧ 80 ≤ 80 := by decide
/-- `UnreadyPortPinsHaveNoEffect`: pins that differ where the port is not ready. -/
theorem witness_UnreadyPortPinsHaveNoEffect :
    (presentWord 0x5).rst = (presentWord 0x901).rst ∧ sending.phase = .send ∧
    (presentWord 0x5).outReady = (presentWord 0x901).outReady ∧
    (presentWord 0x5).sinkStatus = (presentWord 0x901).sinkStatus ∧ presentWord 0x5 ≠ presentWord 0x901 ∧
    State.reset.phase = .idle ∧ (takePins .ok).evValid = (takePins .err).evValid ∧
    (takePins .ok).evWord = (takePins .err).evWord ∧ (takePins .ok).rst = (takePins .err).rst ∧
    takePins .ok ≠ takePins .err := by decide
/-- `SinkMayStallForEver`: no stalled step, and two. -/
theorem witness_SinkMayStallForEver :
    ∃ (stall later : List Inputs) (s : State), s.phase = .send ∧ s.inputs = stall ++ later ∧
      (∀ now ∈ stall, now.rst = false ∧ now.outReady = false) ∧ stall.length = 2 :=
  ⟨[presentWord 0x5, presentWord 0x901], [takePins .ok],
    { sending with inputs := [presentWord 0x5, presentWord 0x901, takePins .ok] }, rfl, rfl, by decide, rfl⟩
/-- `CompletionReleasesLatch`, for each status. -/
theorem witness_CompletionReleasesLatch :
    sending.phase = .send ∧ { sending with inputs := [takePins .ok] }.inputsNow.rst = false ∧
    { sending with inputs := [takePins .ok] }.inputsNow.outReady = true ∧
    { sending with inputs := [takePins .err] }.inputsNow.sinkStatus = .err := by decide
/-- `ResetStepClears`, `ResetBeatsHandshakes`. -/
theorem witness_reset_step :
    { sending with inputs := [resetPins] }.inputsNow.rst = true ∧ resetPins.rst = true := by decide
/-- `WaitingKeepsState`: each of the two waiting states. -/
theorem witness_WaitingKeepsState :
    ({ framed with inputs := [takePins .ok] }.inputsNow.rst = false ∧ framed.phase = .idle ∧
      { framed with inputs := [takePins .ok] }.inputsNow.evValid = false) ∧
    ({ sending with inputs := [presentWord 0x5] }.inputsNow.rst = false ∧ sending.phase = .send ∧
      { sending with inputs := [presentWord 0x5] }.inputsNow.outReady = false) := by decide
/-- `PresentedFrameIsTheAccumulator`: a reachable state in SEND, and its transfer. -/
theorem witness_PresentedFrameIsTheAccumulator :
    sending.Inv ∧ sending.phase = .send ∧ { sending with inputs := [takePins .ok] }.Inv ∧
    transferOf { sending with inputs := [takePins .ok] } = some ⟨0x1, ⟨0x1, 0, 0, 0, 0, []⟩, .ok⟩ ∧
    State.reset.phase = .idle := by decide
/-- `FrameTakesNPlusFiveCycles`: P1's frame. -/
theorem witness_FrameTakesNPlusFiveCycles :
    ∃ (chunks : List (List Byte)) (s : State), s.phase = .idle ∧ (∀ c ∈ chunks, c.length ≤ 8) ∧ chunks.length = 2 ∧
      s.inputs =
        ([Instr.ident 0x123 false false, Instr.control 3] ++ chunks.map Instr.data ++ [Instr.crc 0x55, Instr.ack]).map
          (fun i => presentWord (encode i)) ++ (takePins .ok :: []) :=
  ⟨[[0xAA], [0xBB, 0xCC]],
    { State.reset with inputs :=
        ([Instr.ident 0x123 false false, Instr.control 3] ++ [[0xAA], [0xBB, 0xCC]].map Instr.data ++
          [Instr.crc 0x55, Instr.ack]).map (fun i => presentWord (encode i)) ++ (takePins .ok :: []) },
    rfl, by decide, rfl, rfl⟩
/-- `SinkTakesAckedRecordsInOrder`: a completion of the pending record, then an ACK that latches it again (V10b). -/
theorem witness_SinkTakesAckedRecordsInOrder :
    ∃ s t : State, Host.Core.run Sys2Proof.core 2 s = .next t ∧ resetFree 2 s = true ∧ s.phase = .send ∧
      emittedRecords 2 s = [0x1] ∧ pendingRecord t = [0x1] :=
  ⟨{ sending with inputs := [takePins .err, presentWord 0x5] }, _, rfl, by decide, rfl, by decide, by decide⟩
/-- `StepKeepsInvariant`: a state in IDLE and one in SEND that meet the invariant, each with a next state. -/
theorem witness_StepKeepsInvariant :
    (loaded.withFetchWord 80 0x5).Inv ∧ (∃ t, step (loaded.withFetchWord 80 0x5) = .next t) ∧
    { sending with inputs := [takePins .ok] }.Inv ∧ (∃ t, step { sending with inputs := [takePins .ok] } = .next t) :=
  ⟨by decide, ⟨_, rfl⟩, by decide, ⟨_, rfl⟩⟩

end Sys2Proof.Tests
end

/-! PROOFS. The family of spec/00_scope.md: the invariant at reset and over every step (R34), the record under the payload cap
(R21, R37), the records on their way to the sink (R43, R86), and what a step runs, waits for and never writes (R14, R30). -/

namespace Sys2Proof.Machine

/-! ## What each kind of step answers -/

theorem step_of_accept {s : State} {w : EventWord} (h : stepKind s s.inputsNow = .accept w) :
    step s = exec (decode w) s.sampled := by
  unfold step; rw [h]

theorem step_of_idle {s : State} (h : stepKind s s.inputsNow = .idle) : step s = .next s.sampled.hold := by
  unfold step; rw [h]

theorem State.inputsNow_of_inputs {s : State} {now : Inputs} {later : List Inputs} (h : s.inputs = now :: later) :
    s.inputsNow = now := by
  unfold State.inputsNow; rw [h]

theorem State.sampled_of_inputs {s : State} {now : Inputs} {later : List Inputs} (h : s.inputs = now :: later) :
    s.sampled = { s with inputs := later } := by
  unfold State.sampled; rw [h]

/-- In IDLE the step accepts the word; in SEND it only holds, as `exec` on a busy block does (log 3, log 8). -/
theorem step_withFetchWord (s : State) (nbits w : Nat) :
    step (s.withFetchWord nbits w) = exec (decode (tableWord nbits w)) s := by
  cases hp : s.phase with
  | idle => exact step_of_accept (s := s.withFetchWord nbits w) (stepKind_accept.mpr ⟨rfl, hp, rfl, rfl⟩)
  | send =>
    rw [exec_eq_accept, accept_of_send hp]
    exact step_of_idle (s := s.withFetchWord nbits w) (stepKind_idle.mpr ⟨rfl, .inr ⟨hp, rfl⟩⟩)

/-- Settles O39, by the accept and idle kinds of step. -/
theorem stepRunsDecodedEvent : Obligations.StepRunsDecodedEvent := by
  refine ⟨fun s hrst hvalid hidle => ?_, fun s now later h => ?_, fun s nbits w hbits => ?_⟩
  · exact step_of_accept (stepKind_accept.mpr ⟨hrst, hidle, hvalid, rfl⟩)
  · exact ⟨State.inputsNow_of_inputs h, State.sampled_of_inputs h⟩
  · exact ⟨decode (tableWord nbits w), if_pos hbits, step_withFetchWord s nbits w⟩

/-- Settles O48: the two waiting states are the Idle kind of step. -/
theorem waitingKeepsState : Obligations.WaitingKeepsState := by
  intro s hrst hwait
  have hidle : stepKind s s.inputsNow = .idle := stepKind_idle.mpr ⟨hrst, hwait⟩
  exact ⟨hidle, step_of_idle hidle⟩

/-! ## The parameters -/

@[simp] theorem accepted_params (i : Instr) (s : State) : (accepted i s).params = s.params := by
  cases i <;> rfl

@[simp] theorem State.complete_params (status : SinkStatus) (s : State) : (s.complete status).params = s.params := rfl

/-- Settles O50, over the four kinds of step. -/
theorem parametersNeverChange : Obligations.ParametersNeverChange := by
  intro s t h
  obtain ⟨-, rfl⟩ | ⟨w, -, -, rfl⟩ | ⟨status, -, -, rfl⟩ | ⟨-, rfl⟩ := step_cases h <;> simp

/-! ## The invariant (R34) -/

@[simp] theorem clip_zero (b : Bound) : clip b 0 = 0 := by
  cases b <;> simp [clip]

@[simp] theorem withinBound_zero (b : Bound) : withinBound b 0 = true := by
  cases b <;> simp [withinBound]

/-- A counter the step may increase stays in its width (R26, R27). -/
theorem countIf_lt {width n : Nat} (h : n < 2 ^ width) (counted : Bool) :
    (if counted then wrapAdd width n 1 else n) < 2 ^ width := by
  split
  · exact wrapAdd_lt width n 1
  · exact h

theorem State.latchCoherent_of_idle {s : State} (h : s.phase = .idle) : s.LatchCoherent := by
  intro hsend
  rw [h] at hsend
  cases hsend

theorem State.inv_toReset {s : State} (legal : legalParams s.params = true) : s.toReset.Inv := by
  have hpos : 0 < 2 ^ s.params.cntW := Nat.two_pow_pos _
  exact ⟨legal, ⟨(clip_zero _).symm, withinBound_zero _, hpos, hpos, hpos, hpos⟩,
    State.latchCoherent_of_idle rfl, fun _ => rfl⟩

theorem State.Inv.sampled {s : State} (h : s.Inv) : s.sampled.Inv := by
  simpa [State.Inv, State.WellSized, State.LatchCoherent, State.IdentifierUnset, snapshot] using h

theorem State.Inv.endOfStep {s : State} (h : s.Inv) (d : DiagVec) : (s.endOfStep d).Inv := by
  obtain ⟨legal, ⟨hpayload, hlen, hframes, hmalformed, hoverflow, htxErr⟩, hlatch, hunset⟩ := h
  exact ⟨legal,
    ⟨hpayload, hlen, hframes, countIf_lt hmalformed _, countIf_lt hoverflow _, countIf_lt htxErr _⟩,
    hlatch, hunset⟩

theorem State.Inv.newFrame {s : State} (h : s.Inv) (hidle : s.phase = .idle) (identifier : Word) :
    (s.newFrame identifier).Inv := by
  obtain ⟨legal, ⟨-, -, hcounters⟩, -, -⟩ := h
  exact ⟨legal, ⟨(clip_zero _).symm, withinBound_zero _, hcounters⟩, State.latchCoherent_of_idle hidle, nofun⟩

theorem State.Inv.setDeclaredLength {s : State} (h : s.Inv) (hidle : s.phase = .idle) (len : Byte) :
    (s.setDeclaredLength len).Inv := by
  obtain ⟨legal, hsized, -, hunset⟩ := h
  exact ⟨legal, hsized, State.latchCoherent_of_idle hidle, hunset⟩

theorem State.Inv.appendBytes {s : State} (h : s.Inv) (hidle : s.phase = .idle) (bytes : List Byte) :
    (s.appendBytes bytes).Inv := by
  obtain ⟨legal, ⟨hpayload, -, hcounters⟩, -, hunset⟩ := h
  exact ⟨legal, ⟨appendView_length legal hpayload bytes, satAdd_within _ _ _, hcounters⟩,
    State.latchCoherent_of_idle hidle, hunset⟩

theorem State.Inv.setCrc {s : State} (h : s.Inv) (hidle : s.phase = .idle) (crc : Word) : (s.setCrc crc).Inv := by
  obtain ⟨legal, hsized, -, hunset⟩ := h
  exact ⟨legal, hsized, State.latchCoherent_of_idle hidle, hunset⟩

/-- ACK writes no accumulator field, so the snapshot it latches is still the accumulator's (R34(c)). -/
theorem State.Inv.countFrame_emit {s : State} (h : s.Inv) : (s.countFrame.emit (snapshot s)).Inv := by
  obtain ⟨legal, ⟨hpayload, hlen, -, hdiagnostics⟩, -, hunset⟩ := h
  exact ⟨legal, ⟨hpayload, hlen, wrapAdd_lt _ _ _, hdiagnostics⟩, fun _ => ⟨rfl, rfl⟩, hunset⟩

theorem State.Inv.accepted {s : State} (h : s.Inv) (hidle : s.phase = .idle) (i : Instr) : (accepted i s).Inv := by
  cases i with
  | ident identifier isExtended isRemote => exact (h.newFrame hidle _).endOfStep _
  | control len => exact (h.setDeclaredLength hidle len).endOfStep _
  | data bytes => exact (h.appendBytes hidle bytes).endOfStep _
  | dataRsv count => exact h.endOfStep _
  | crc crc => exact (h.setCrc hidle crc).endOfStep _
  | ack => exact h.countFrame_emit.endOfStep _
  | ignored kind => exact h.endOfStep _

/-- Leaving SEND drops what R34(b) and (c) say of the latch. -/
theorem State.Inv.complete {s : State} (h : s.Inv) (status : SinkStatus) : (s.complete status).Inv := by
  obtain ⟨legal, hsized, -, hunset⟩ := h
  have hreleased : ({ s with phase := .idle } : State).Inv :=
    ⟨legal, hsized, State.latchCoherent_of_idle rfl, hunset⟩
  exact hreleased.endOfStep _

/-- Settles O54: each of the four kinds of step keeps the invariant. -/
theorem stepKeepsInvariant : Obligations.StepKeepsInvariant := by
  intro s t h hstep
  obtain ⟨-, rfl⟩ | ⟨w, -, hidle, rfl⟩ | ⟨status, -, -, rfl⟩ | ⟨-, rfl⟩ := step_cases hstep
  · exact State.inv_toReset h.sampled.1
  · exact h.sampled.accepted (by simpa using hidle) (decode w)
  · exact h.sampled.complete status
  · exact h.sampled.endOfStep 0

/-- Settles O53: the reset state is the Reset step's, with this hardware's parameters, which are legal. -/
theorem resetMeetsInvariant : Obligations.ResetMeetsInvariant :=
  State.inv_toReset (s := State.reset) (by decide)

/-! ## The record under the payload cap and the length's saturation (R21, R37) -/

/-- The record reads the identifier, the length up to 8, and the payload bytes below it (R81, R94). -/
theorem encodeRecord_congr {f g : CanFrame} (hid : f.identifier = g.identifier) (hlen : recordLength f = recordLength g)
    (hbytes : ∀ i < recordLength g, f.payload[i]? = g.payload[i]?) : encodeRecord f = encodeRecord g := by
  have hbyte (i : Nat) : recordPayloadByte f i = recordPayloadByte g i := by
    unfold recordPayloadByte
    rw [hlen]
    split
    · next h => rw [List.getD_eq_getElem?_getD, List.getD_eq_getElem?_getD, hbytes i h]
    · rfl
  simp only [encodeRecord, hbyte, hlen, hid]

/-- Legal parameters retain and count at least the 8 bytes a record carries (R9). -/
theorem legalParams_eight {p : Params} (legal : legalParams p = true) :
    withinBound p.payloadCap 8 = true ∧ withinBound (maxOfWidth p.lenW) 8 = true := by
  simp only [legalParams, Bool.and_eq_true] at legal
  obtain ⟨⟨⟨hcap, hwidth⟩, -⟩, -⟩ := legal
  refine ⟨hcap, ?_⟩
  cases hw : p.lenW with
  | inf => rfl
  | finite w =>
    simp only [hw, withinBound, decide_eq_true_eq] at hwidth
    have hpow : 2 ^ 4 ≤ 2 ^ w := Nat.pow_le_pow_right (by decide) hwidth
    simp only [maxOfWidth, withinBound, decide_eq_true_eq]
    omega

theorem min_clip_of_withinBound {b : Bound} {k : Nat} (h : withinBound b k = true) (n : Nat) :
    min (clip b n) k = min n k := by
  cases b with
  | inf => rfl
  | finite m =>
    simp only [withinBound, decide_eq_true_eq] at h
    simp only [clip]
    omega

theorem takeBound_getElem? {b : Bound} {k i : Nat} (h : withinBound b k = true) (hi : i < k) (bytes : List Byte) :
    (takeBound b bytes)[i]? = bytes[i]? := by
  cases b with
  | inf => rfl
  | finite m =>
    simp only [withinBound, decide_eq_true_eq] at h
    exact List.getElem?_take_of_lt (by omega)

/-- Settles O31: a record carries 8 bytes at most, and legal parameters keep and count as many. -/
theorem capAndSaturationKeepRecord : Obligations.CapAndSaturationKeepRecord := by
  intro p identifier crc declaredLength bytes legal
  obtain ⟨hcap, hwidth⟩ := legalParams_eight legal
  refine encodeRecord_congr rfl (min_clip_of_withinBound hwidth bytes.length) fun i hi => ?_
  exact takeBound_getElem? hcap (lt_of_lt_of_le hi (Nat.min_le_right _ _)) bytes

/-! ## The records on their way to the sink (R43, R46, R86) -/

theorem pendingRecord_of_idle {s : State} (h : s.phase = .idle) : pendingRecord s = [] := by
  unfold pendingRecord; rw [h]

theorem pendingRecord_of_send {s : State} (h : s.phase = .send) : pendingRecord s = [s.outRec] := by
  unfold pendingRecord; rw [h]

theorem pendingRecord_congr {s t : State} (hphase : s.phase = t.phase) (hrec : s.outRec = t.outRec) :
    pendingRecord s = pendingRecord t := by
  unfold pendingRecord; rw [hphase, hrec]

theorem accepted_phase (i : Instr) (s : State) : (accepted i s).phase = if i = .ack then .send else s.phase := by
  cases i <;> rfl

/-- The records the ACK of the coming step, if it accepts one, latches in the next state `t`. -/
def ackedRecord (s t : State) : List Record := if acceptsAck s then [t.outRec] else []

/-- The records the coming step transfers to the sink. -/
def sentRecord (s : State) : List Record := (transferOf s).toList.map Transfer.record

theorem ackedRecord_of_accept {s t : State} {w : EventWord} (h : stepKind s s.inputsNow = .accept w) :
    ackedRecord s t = if decode w = .ack then [t.outRec] else [] := by
  simp [ackedRecord, acceptsAck, h]

theorem ackedRecord_of_not_accept {s t : State} (h : ∀ w, stepKind s s.inputsNow ≠ .accept w) : ackedRecord s t = [] := by
  unfold ackedRecord acceptsAck
  split
  · next w hk => exact absurd hk (h w)
  all_goals rfl

theorem sentRecord_of_complete {s : State} {status : SinkStatus} (h : stepKind s s.inputsNow = .complete status) :
    sentRecord s = [s.outRec] := by
  simp [sentRecord, transferOf, h]

theorem sentRecord_of_not_complete {s : State} (h : ∀ status, stepKind s s.inputsNow ≠ .complete status) :
    sentRecord s = [] := by
  unfold sentRecord transferOf
  split
  · next status hk => exact absurd hk (h status)
  all_goals rfl

/-- The block accepts an event in IDLE, so what is pending afterwards is what an ACK latched, and nothing else. -/
theorem pendingRecord_accepted {s : State} (h : s.phase = .idle) (i : Instr) :
    pendingRecord (accepted i s) = if i = .ack then [(accepted i s).outRec] else [] := by
  have hphase := accepted_phase i s
  split
  · next hack => exact pendingRecord_of_send (by rw [hphase, if_pos hack])
  · next hack => exact pendingRecord_of_idle (by rw [hphase, if_neg hack, h])

/-- One step without a Reset neither loses, repeats nor reorders a record. -/
theorem step_conserves_records {s t : State} (hstep : step s = .next t) (hrst : s.inputsNow.rst = false) :
    pendingRecord s ++ ackedRecord s t = sentRecord s ++ pendingRecord t := by
  obtain ⟨hk, -⟩ | ⟨w, hk, hidle, rfl⟩ | ⟨status, hk, hsend, rfl⟩ | ⟨hk, rfl⟩ := step_cases hstep
  · simp [stepKind_reset.mp hk] at hrst
  · rw [pendingRecord_of_idle hidle, ackedRecord_of_accept hk, sentRecord_of_not_complete (by simp [hk]),
      pendingRecord_accepted (by simpa using hidle)]
  · have hreleased : pendingRecord (s.sampled.complete status) = [] := pendingRecord_of_idle rfl
    rw [pendingRecord_of_send hsend, ackedRecord_of_not_accept (by simp [hk]), sentRecord_of_complete hk, hreleased]
  · have hheld : pendingRecord s = pendingRecord s.sampled.hold := pendingRecord_congr (by simp) (by simp)
    rw [ackedRecord_of_not_accept (by simp [hk]), sentRecord_of_not_complete (by simp [hk]), hheld, List.append_nil,
      List.nil_append]

/-! One more step at the front of a run. -/

theorem core_run_succ {M : Host.Core} {n : Nat} {s u : M.State} (h : M.run (n + 1) s = .next u) :
    ∃ t, M.step s = .next t ∧ M.run n t = .next u := by
  unfold Host.Core.run at h
  split at h
  · next t hstep => exact ⟨t, hstep, h⟩
  · cases h
  · cases h

theorem run_succ {n : Nat} {s u : State} (h : Host.Core.run Sys2Proof.core (n + 1) s = .next u) :
    ∃ t, step s = .next t ∧ Host.Core.run Sys2Proof.core n t = .next u :=
  core_run_succ h

theorem resetFree_succ {n : Nat} {s t : State} (hstep : step s = .next t) (h : resetFree (n + 1) s = true) :
    s.inputsNow.rst = false ∧ resetFree n t = true := by
  simpa [resetFree, hstep] using h

theorem emittedRecords_succ {n : Nat} {s t : State} (hstep : step s = .next t) :
    emittedRecords (n + 1) s = ackedRecord s t ++ emittedRecords n t := by
  simp [emittedRecords, hstep, ackedRecord]

theorem observe_succ_records {n : Nat} {s t : State} (hstep : step s = .next t) :
    (observe (n + 1) s).transfers.map Transfer.record =
      sentRecord s ++ (observe n t).transfers.map Transfer.record := by
  simp [observe, hstep, sentRecord]

/-- Settles O51, by induction on the number of steps, each of which conserves the records. -/
theorem sinkTakesAckedRecordsInOrder : Obligations.SinkTakesAckedRecordsInOrder := by
  intro n
  induction n with
  | zero =>
    intro s t hrun _
    injection hrun with hst
    subst hst
    simp [emittedRecords, observe]
  | succ n ih =>
    intro s u hrun hfree
    obtain ⟨t, hstep, hrest⟩ := run_succ hrun
    obtain ⟨hrst, hfree⟩ := resetFree_succ hstep hfree
    calc pendingRecord s ++ emittedRecords (n + 1) s
        = (pendingRecord s ++ ackedRecord s t) ++ emittedRecords n t := by
          rw [emittedRecords_succ hstep, List.append_assoc]
      _ = sentRecord s ++ (pendingRecord t ++ emittedRecords n t) := by
          rw [step_conserves_records hstep hrst, List.append_assoc]
      _ = sentRecord s ++ ((observe n t).transfers.map Transfer.record ++ pendingRecord u) := by
          rw [ih t u hrest hfree]
      _ = (observe (n + 1) s).transfers.map Transfer.record ++ pendingRecord u := by
          rw [observe_succ_records hstep, List.append_assoc]

end Sys2Proof.Machine

/-! PROOFS. The family of spec/10_state.md: who writes each register and what it holds (R18 to R24), the write matrix (R35), the
length and the CRC leaking forward (R31), the counters (R26, R27), the presented frame (R25, R34) and the reset values (R33). -/

namespace Sys2Proof.Machine

/-! ## The bits of the diagnostic vectors -/

theorem getLsbD_raiseIf (condition : Bool) (code : DiagVec) (k : Nat) :
    (raiseIf condition code).getLsbD k = (condition && code.getLsbD k) := by
  cases condition with
  | true => rw [Bool.true_and]; rfl
  | false => exact BitVec.getLsbD_zero

theorem isOverflow_raiseIf (condition : Bool) (code : DiagVec) :
    isOverflow (raiseIf condition code) = (condition && isOverflow code) :=
  getLsbD_raiseIf condition code 3

theorem isTxErr_raiseIf (condition : Bool) (code : DiagVec) :
    isTxErr (raiseIf condition code) = (condition && isTxErr code) :=
  getLsbD_raiseIf condition code 4

theorem isOverflow_or (d e : DiagVec) : isOverflow (d ||| e) = (isOverflow d || isOverflow e) := BitVec.getLsbD_or

theorem isTxErr_or (d e : DiagVec) : isTxErr (d ||| e) = (isTxErr d || isTxErr e) := BitVec.getLsbD_or

@[simp] theorem isOverflow_diagLenRange : isOverflow diagLenRange = false := rfl
@[simp] theorem isTxErr_diagLenRange : isTxErr diagLenRange = false := rfl
@[simp] theorem isOverflow_diagNoId : isOverflow diagNoId = false := rfl
@[simp] theorem isTxErr_diagNoId : isTxErr diagNoId = false := rfl
@[simp] theorem isOverflow_diagBadCount : isOverflow diagBadCount = false := rfl
@[simp] theorem isTxErr_diagBadCount : isTxErr diagBadCount = false := rfl
@[simp] theorem isOverflow_diagOverflow : isOverflow diagOverflow = true := rfl
@[simp] theorem isTxErr_diagOverflow : isTxErr diagOverflow = false := rfl

@[simp] theorem isOverflow_noIdDiag (s : State) : isOverflow (noIdDiag s) = false := by
  simp [noIdDiag, isOverflow_raiseIf]

@[simp] theorem isTxErr_noIdDiag (s : State) : isTxErr (noIdDiag s) = false := by
  simp [noIdDiag, isTxErr_raiseIf]

@[simp] theorem isOverflow_controlDiag (len : Byte) (s : State) : isOverflow (controlDiag len s) = false := by
  simp [controlDiag, isOverflow_or, isOverflow_raiseIf]

@[simp] theorem isTxErr_controlDiag (len : Byte) (s : State) : isTxErr (controlDiag len s) = false := by
  simp [controlDiag, isTxErr_or, isTxErr_raiseIf]

@[simp] theorem isOverflow_dataRsvDiag (s : State) : isOverflow (dataRsvDiag s) = false := by
  simp [dataRsvDiag, isOverflow_or]

@[simp] theorem isTxErr_dataRsvDiag (s : State) : isTxErr (dataRsvDiag s) = false := by
  simp [dataRsvDiag, isTxErr_or]

@[simp] theorem isOverflow_ackDiag (s : State) : isOverflow (ackDiag s) = decide (8 < s.payloadLen) := by
  simp [ackDiag, isOverflow_or, isOverflow_raiseIf]

@[simp] theorem isTxErr_ackDiag (s : State) : isTxErr (ackDiag s) = false := by
  simp [ackDiag, isTxErr_or, isTxErr_raiseIf]

/-- LEN_RANGE is the length's range alone (R71). -/
theorem controlDiag_getLsbD_zero (len : Byte) (s : State) :
    (controlDiag len s).getLsbD 0 = decide (8 < len.toNat) := by
  rw [controlDiag, noIdDiag, BitVec.getLsbD_or, getLsbD_raiseIf, getLsbD_raiseIf]
  simp [diagLenRange, diagNoId]

/-! ## What each accepted event leaves, one equation per event -/

/-- A vector without OVERFLOW and TX_ERR moves no counter but `malformed_count` (R97). -/
theorem State.endOfStep_of_malformed_only {d : DiagVec} (hoverflow : isOverflow d = false) (htxErr : isTxErr d = false)
    (s : State) :
    s.endOfStep d = { s with
      diag := d
      malformedCount := if isMalformed d then wrapAdd s.params.cntW s.malformedCount 1 else s.malformedCount } := by
  simp [State.endOfStep, hoverflow, htxErr]

theorem accepted_ident (identifier : Word) (isExtended isRemote : Bool) (s : State) :
    accepted (.ident identifier isExtended isRemote) s = { s with
      payload := []
      payloadLen := 0
      identifier := assembleIdentifier s.params.idHighBits identifier isExtended isRemote
      idSeen := true
      diag := 0 } := rfl

theorem accepted_control (len : Byte) (s : State) :
    accepted (.control len) s = { s with
      declaredLength := len
      diag := controlDiag len s
      malformedCount :=
        if isMalformed (controlDiag len s) then wrapAdd s.params.cntW s.malformedCount 1 else s.malformedCount } :=
  State.endOfStep_of_malformed_only (isOverflow_controlDiag len s) (isTxErr_controlDiag len s) _

theorem accepted_data (bytes : List Byte) (s : State) :
    accepted (.data bytes) s = { s with
      payload := appendView s.params.payloadCap s.payload bytes
      payloadLen := satAdd s.params.lenW s.payloadLen bytes.length
      diag := noIdDiag s
      malformedCount :=
        if isMalformed (noIdDiag s) then wrapAdd s.params.cntW s.malformedCount 1 else s.malformedCount } :=
  State.endOfStep_of_malformed_only (isOverflow_noIdDiag s) (isTxErr_noIdDiag s) _

theorem accepted_dataRsv (count : BitVec 4) (s : State) :
    accepted (.dataRsv count) s = { s with
      diag := dataRsvDiag s
      malformedCount :=
        if isMalformed (dataRsvDiag s) then wrapAdd s.params.cntW s.malformedCount 1 else s.malformedCount } :=
  State.endOfStep_of_malformed_only (isOverflow_dataRsvDiag s) (isTxErr_dataRsvDiag s) _

theorem accepted_crc (crc : Word) (s : State) :
    accepted (.crc crc) s = { s with
      crc := crc
      diag := noIdDiag s
      malformedCount :=
        if isMalformed (noIdDiag s) then wrapAdd s.params.cntW s.malformedCount 1 else s.malformedCount } :=
  State.endOfStep_of_malformed_only (isOverflow_noIdDiag s) (isTxErr_noIdDiag s) _

theorem accepted_ack (s : State) :
    accepted .ack s = { s with
      framesEmitted := wrapAdd s.params.cntW s.framesEmitted 1
      outRec := encodeRecord (snapshot s)
      outFrame := snapshot s
      phase := .send
      diag := ackDiag s
      malformedCount :=
        if isMalformed (ackDiag s) then wrapAdd s.params.cntW s.malformedCount 1 else s.malformedCount
      overflowCount :=
        if 8 < s.payloadLen then wrapAdd s.params.cntW s.overflowCount 1 else s.overflowCount } := by
  simp [accepted, State.endOfStep, State.countFrame, State.emit]

theorem accepted_ignored (kind : Byte) (s : State) : accepted (.ignored kind) s = { s with diag := 0 } := rfl

/-! ## What an accepted event does to one register -/

@[simp] theorem accepted_inputs (i : Instr) (s : State) : (accepted i s).inputs = s.inputs := by
  cases i <;> rfl

/-- Only IDENT writes `identifier` (R18). -/
theorem accepted_identifier (i : Instr) (s : State) :
    (accepted i s).identifier = s.identifier ∨ ∃ a b c, i = .ident a b c := by
  cases i with
  | ident a b c => exact .inr ⟨a, b, c, rfl⟩
  | _ => exact .inl rfl

/-- Only CONTROL writes `declared_length`, with its operand (R19). -/
theorem accepted_declaredLength (i : Instr) (s : State) :
    (accepted i s).declaredLength = s.declaredLength ∨ i = .control (accepted i s).declaredLength := by
  cases i with
  | control len => exact .inr rfl
  | _ => exact .inl rfl

/-- Only CRC writes `crc`, with its operand (R22). -/
theorem accepted_crc_register (i : Instr) (s : State) :
    (accepted i s).crc = s.crc ∨ i = .crc (accepted i s).crc := by
  cases i with
  | crc crc => exact .inr rfl
  | _ => exact .inl rfl

/-- IDENT sets `id_seen`, no event clears it (R23). -/
theorem accepted_idSeen (i : Instr) (s : State) :
    (accepted i s).idSeen = true ↔ s.idSeen = true ∨ ∃ a b c, i = .ident a b c := by
  cases i <;> simp [accepted]

/-- Only ACK counts a frame (R26). -/
theorem accepted_framesEmitted (i : Instr) (s : State) :
    (accepted i s).framesEmitted = if i = .ack then wrapAdd s.params.cntW s.framesEmitted 1 else s.framesEmitted := by
  cases i <;> rfl

/-- What an event leaves reads `id_seen` only for the vector and `malformed_count` (R23). -/
theorem accepted_of_idSeen (i : Instr) (s : State) (seen : Bool) :
    accepted i { s with idSeen := seen } = { accepted i s with
      idSeen := (accepted i { s with idSeen := seen }).idSeen
      diag := (accepted i { s with idSeen := seen }).diag
      malformedCount := (accepted i { s with idSeen := seen }).malformedCount } := by
  cases i with
  | ident a b c => rfl
  | control len => simp only [accepted_control]
  | data bytes => simp only [accepted_data]
  | dataRsv count => simp only [accepted_dataRsv]
  | crc crc => simp only [accepted_crc]
  | ack => simp only [accepted_ack, snapshot]
  | ignored kind => rfl

theorem exec_of_idle {s : State} (h : s.phase = .idle) (i : Instr) : exec i s = .next (accepted i s) := by
  rw [exec_eq_accept, accept_of_idle h]

theorem exec_of_send {s : State} (h : s.phase = .send) (i : Instr) : exec i s = .next s.hold := by
  rw [exec_eq_accept, accept_of_send h]

/-! ## What a step leaves, as one function of its kind -/

/-- What a step of the kind leaves of the state whose input values are taken. -/
def stepped (kind : StepKind) (s : State) : State :=
  match kind with
  | .accept w => accepted (decode w) s
  | .complete status => s.complete status
  | .reset => s.toReset
  | .idle => s.hold

theorem step_eq (s : State) : step s = .next (stepped (stepKind s s.inputsNow) s.sampled) := by
  cases hk : stepKind s s.inputsNow with
  | accept w => rw [step_of_accept hk, exec_of_idle (by simpa using (stepKind_accept.mp hk).2.1), stepped]
  | complete status => simp only [step, hk, stepped]
  | reset => simp only [step, hk, stepped]
  | idle => rw [step_of_idle hk, stepped]

theorem eq_stepped {s t : State} (h : step s = .next t) : t = stepped (stepKind s s.inputsNow) s.sampled := by
  rw [step_eq] at h
  injection h with h
  exact h.symm

@[simp] theorem stepped_inputs (kind : StepKind) (s : State) : (stepped kind s).inputs = s.inputs := by
  cases kind with
  | accept w => exact accepted_inputs (decode w) s
  | _ => rfl

/-- A register that taking the inputs, a completion and an Idle step leave alone is written by a Reset or an accepted event
only. -/
theorem writer_of_step {α : Type} (register : State → α) (hsampled : ∀ s, register s.sampled = register s)
    (hcomplete : ∀ status s, register (s.complete status) = register s) (hhold : ∀ s, register s.hold = register s)
    {s t : State} (hstep : step s = .next t) (hne : register t ≠ register s) :
    stepKind s s.inputsNow = .reset ∨
    ∃ w, stepKind s s.inputsNow = .accept w ∧ register (accepted (decode w) s.sampled) ≠ register s.sampled ∧
      t = accepted (decode w) s.sampled := by
  obtain ⟨hk, -⟩ | ⟨w, hk, -, rfl⟩ | ⟨status, -, -, rfl⟩ | ⟨-, rfl⟩ := step_cases hstep
  · exact .inl hk
  · exact .inr ⟨w, hk, by rwa [hsampled], rfl⟩
  · exact absurd ((hcomplete status _).trans (hsampled s)) hne
  · exact absurd ((hhold _).trans (hsampled s)) hne

/-! ## The identifier (R18) -/

theorem getLsbD_extendedFlag (present : Bool) {k : Nat} (hk : k < 32) :
    (if present then extendedFlag else 0).getLsbD k = (present && decide (k = 31)) := by
  revert present k; decide

theorem getLsbD_remoteFlag (present : Bool) {k : Nat} (hk : k < 32) :
    (if present then remoteFlag else 0).getLsbD k = (present && decide (k = 30)) := by
  revert present k; decide

theorem getLsbD_valueMask {k : Nat} (hk : k < 32) : (0x3FFFFFFF : Word).getLsbD k = decide (k < 30) := by
  revert k; decide

theorem getLsbD_identifierOperand (mode : IdHighBits) (identifier : Word) {k : Nat} (hk : k < 32) :
    (identifierOperand mode identifier).getLsbD k =
      (identifier.getLsbD k && (decide (mode = .keep) || decide (k < 30))) := by
  cases mode with
  | keep => simp [identifierOperand]
  | clear => rw [identifierOperand, BitVec.getLsbD_and, getLsbD_valueMask hk]; simp

theorem getLsbD_assembleIdentifier (mode : IdHighBits) (identifier : Word) (isExtended isRemote : Bool) {k : Nat}
    (hk : k < 32) :
    (assembleIdentifier mode identifier isExtended isRemote).getLsbD k =
      (identifier.getLsbD k && (decide (mode = .keep) || decide (k < 30)) ||
        (isExtended && decide (k = 31)) || (isRemote && decide (k = 30))) := by
  rw [assembleIdentifier, BitVec.getLsbD_or, BitVec.getLsbD_or, getLsbD_identifierOperand mode identifier hk,
    getLsbD_extendedFlag isExtended hk, getLsbD_remoteFlag isRemote hk]

/-- Settles O15: the assembled identifier bit by bit, and IDENT as its only writer but Reset. -/
theorem identifierRegisterBits : Obligations.IdentifierRegisterBits := by
  refine ⟨fun identifier isExtended isRemote s hidle => ⟨_, exec_of_idle hidle _, ?_, ?_, ?_⟩, fun s t hstep hne => ?_⟩
  · intro k hk
    rw [accepted_ident, getLsbD_assembleIdentifier _ _ _ _ (by omega)]
    simp [hk, show k ≠ 31 by omega, show k ≠ 30 by omega]
  · intro hkeep
    rw [accepted_ident, getLsbD_assembleIdentifier _ _ _ _ (by decide), getLsbD_assembleIdentifier _ _ _ _ (by decide)]
    simp [hkeep]
  · intro hclear
    rw [accepted_ident, getLsbD_assembleIdentifier _ _ _ _ (by decide), getLsbD_assembleIdentifier _ _ _ _ (by decide)]
    simp [hclear]
  · obtain hreset | ⟨w, hk, hwrite, -⟩ :=
      writer_of_step State.identifier State.sampled_identifier (fun _ _ => rfl) (fun _ => rfl) hstep hne
    · exact .inl hreset
    · obtain ⟨a, b, c, hident⟩ := (accepted_identifier (decode w) s.sampled).resolve_left hwrite
      exact .inr ⟨w, a, b, c, hk, hident⟩

/-! ## The declared length and the CRC (R19, R22) -/

theorem declaredLength_writer {s t : State} (hstep : step s = .next t) (hne : t.declaredLength ≠ s.declaredLength) :
    stepKind s s.inputsNow = .reset ∨
    ∃ w, stepKind s s.inputsNow = .accept w ∧ decode w = .control t.declaredLength := by
  obtain hreset | ⟨w, hk, hwrite, rfl⟩ :=
    writer_of_step State.declaredLength State.sampled_declaredLength (fun _ _ => rfl) (fun _ => rfl) hstep hne
  · exact .inl hreset
  · exact .inr ⟨w, hk, (accepted_declaredLength _ _).resolve_left hwrite⟩

theorem crc_writer {s t : State} (hstep : step s = .next t) (hne : t.crc ≠ s.crc) :
    stepKind s s.inputsNow = .reset ∨ ∃ w, stepKind s s.inputsNow = .accept w ∧ decode w = .crc t.crc := by
  obtain hreset | ⟨w, hk, hwrite, rfl⟩ :=
    writer_of_step State.crc State.sampled_crc (fun _ _ => rfl) (fun _ => rfl) hstep hne
  · exact .inl hreset
  · exact .inr ⟨w, hk, (accepted_crc_register _ _).resolve_left hwrite⟩

/-- Settles O16, by CONTROL's and ACK's equations and `declaredLength_writer`; the encoder does not read the field. -/
theorem declaredLengthRegisterRule : Obligations.DeclaredLengthRegisterRule := by
  refine ⟨fun len s hidle => ⟨_, exec_of_idle hidle _, rfl, ?_⟩, fun s t => declaredLength_writer,
    fun s hidle => ⟨_, exec_of_idle hidle _, rfl⟩, fun f len => rfl⟩
  rw [accepted_control, controlDiag_getLsbD_zero]
  simp

/-- Settles O17, by CRC's and ACK's equations and `crc_writer`; the encoder does not read the field. -/
theorem crcRegisterRule : Obligations.CrcRegisterRule :=
  ⟨rfl, fun _ _ hidle => ⟨_, exec_of_idle hidle _, rfl⟩, fun _ _ => crc_writer,
    fun _ hidle => ⟨_, exec_of_idle hidle _, rfl⟩, fun _ _ => rfl⟩

/-! ## Whether an IDENT was seen (R23) -/

theorem step_idSeen {s t : State} (hstep : step s = .next t) :
    t.idSeen = true ↔ stepKind s s.inputsNow ≠ .reset ∧
      (s.idSeen = true ∨ ∃ w a b c, stepKind s s.inputsNow = .accept w ∧ decode w = .ident a b c) := by
  obtain ⟨hk, rfl⟩ | ⟨w, hk, -, rfl⟩ | ⟨status, hk, -, rfl⟩ | ⟨hk, rfl⟩ := step_cases hstep
  · simp [hk]
  · simp [hk, accepted_idSeen]
  · simp [hk, State.complete_eq]
  · simp [hk]

/-- Settles O18, by `step_idSeen` and, in each phase, what presenting an event leaves. -/
theorem idSeenFlagRule : Obligations.IdSeenFlagRule := by
  refine ⟨rfl, fun s t => step_idSeen, fun i s t seen hexec => ?_⟩
  obtain ⟨hidle, rfl⟩ | ⟨hsend, rfl⟩ := exec_cases hexec
  · exact ⟨_, exec_of_idle (s := { s with idSeen := seen }) hidle i, accepted_of_idSeen i s seen⟩
  · exact ⟨_, exec_of_send (s := { s with idSeen := seen }) hsend i, rfl⟩

/-! ## The phase and the ports (R24, R25) -/

theorem outValid_of_send {s : State} (h : s.phase = .send) : outValid s false = true := by
  simp [outValid, h]

theorem outValid_of_idle {s : State} (h : s.phase = .idle) (rst : Bool) : outValid s rst = false := by
  simp [outValid, h]

theorem outputs_outRec_of_send {s : State} (h : s.phase = .send) : (outputs s false).outRec = some s.outRec :=
  if_pos (outValid_of_send h)

theorem outputs_outFrame_of_send {s : State} (h : s.phase = .send) : (outputs s false).outFrame = some (sideBand s) :=
  if_pos (outValid_of_send h)

/-- Settles O19, over the four kinds of step. -/
theorem phaseTransitions : Obligations.PhaseTransitions := by
  refine ⟨fun s t hstep => ?_, fun s => ⟨?_, ?_, outputs_outRec_of_send⟩⟩
  · obtain ⟨hk, rfl⟩ | ⟨w, hk, hidle, rfl⟩ | ⟨status, hk, -, rfl⟩ | ⟨hk, rfl⟩ := step_cases hstep
    · simp [hk]
    · simp [hk, accepted_phase, hidle]
    · simp [hk, State.complete_eq]
    · simp [hk]
  · simp [outputs, evReady]
  · simp [outputs, outValid]

/-! ## The write matrix (R35) -/

/-- Settles O21, arm by arm, by the equation of each event and each other kind of step. -/
theorem writeMatrix : Obligations.WriteMatrix := by
  intro s t hstep
  rw [eq_stepped hstep]
  cases hk : stepKind s s.inputsNow with
  | accept w =>
    cases hi : decode w with
    | ident a b c => simp only [stepped, hi, accepted_ident]
    | control len => simp only [stepped, hi, accepted_control]
    | data bytes => simp only [stepped, hi, accepted_data]
    | dataRsv count => simp only [stepped, hi, accepted_dataRsv]
    | crc crc => simp only [stepped, hi, accepted_crc]
    | ack => simp only [stepped, hi, accepted_ack]
    | ignored kind => simp only [stepped, hi, accepted_ignored]
  | complete status => simp only [stepped, State.complete_eq]
  | reset => simp [stepped]
  | idle => simp only [stepped, State.hold_eq]

/-! ## The length and the CRC leak forward (R31) -/

/-! One more step at the front of a run, when the step is known. -/

theorem core_run_succ_eq {M : Host.Core} {n : Nat} {s t : M.State} (h : M.step s = .next t) :
    M.run (n + 1) s = M.run n t := by
  simp only [Host.Core.run, h]

theorem run_succ_eq {n : Nat} {s t : State} (h : step s = .next t) :
    Host.Core.run Sys2Proof.core (n + 1) s = Host.Core.run Sys2Proof.core n t :=
  core_run_succ_eq (M := Sys2Proof.core) h

theorem step_inputs {s t : State} {now : Inputs} {later : List Inputs} (hstep : step s = .next t)
    (h : s.inputs = now :: later) : t.inputs = later := by
  rw [eq_stepped hstep, stepped_inputs, State.sampled_of_inputs h]

/-- A run as long as a listed script answers a state and takes the script's entries. -/
theorem run_script (script later : List Inputs) {s : State} (h : s.inputs = script ++ later) :
    ∃ t, Host.Core.run Sys2Proof.core script.length s = .next t ∧ t.inputs = later := by
  induction script generalizing s with
  | nil => exact ⟨s, rfl, h⟩
  | cons now script ih =>
    obtain ⟨u, hrun, hlater⟩ := ih (step_inputs (step_eq s) h)
    exact ⟨u, (run_succ_eq (step_eq s)).trans hrun, hlater⟩

/-- A register that every step with quiet input values keeps is kept by a run over quiet input values. -/
theorem run_keeps {α : Type} (register : State → α) (quiet : Inputs → Prop)
    (hkeep : ∀ {s t : State}, step s = .next t → quiet s.inputsNow → register t = register s)
    {script later : List Inputs} {s t : State} (h : s.inputs = script ++ later) (hquiet : ∀ now ∈ script, quiet now)
    (hrun : Host.Core.run Sys2Proof.core script.length s = .next t) : register t = register s := by
  induction script generalizing s with
  | nil => injection hrun with hst; rw [hst]
  | cons now script ih =>
    obtain ⟨u, hstep, hrest⟩ := run_succ hrun
    have hnow : quiet s.inputsNow := State.inputsNow_of_inputs h ▸ hquiet now List.mem_cons_self
    calc register t = register u :=
          ih (step_inputs hstep h) (fun later hmem => hquiet later (List.mem_cons_of_mem now hmem)) hrest
      _ = register s := hkeep hstep hnow

/-- A step is no Reset when `rst` is low, and accepts the presented word or none. -/
theorem no_writer_of_quiet {s : State} {event : Instr} (hrst : s.inputsNow.rst = false)
    (hword : decode s.inputsNow.evWord ≠ event) :
    ¬ (stepKind s s.inputsNow = .reset ∨ ∃ w, stepKind s s.inputsNow = .accept w ∧ decode w = event) := by
  rintro (hreset | ⟨w, hk, hevent⟩)
  · simp [stepKind_reset.mp hreset] at hrst
  · obtain ⟨-, -, -, rfl⟩ := stepKind_accept.mp hk
    exact hword hevent

theorem step_keeps_declaredLength {s t : State} (hstep : step s = .next t)
    (hquiet : s.inputsNow.rst = false ∧ ∀ len, decode s.inputsNow.evWord ≠ .control len) :
    t.declaredLength = s.declaredLength := by
  by_contra hne
  exact no_writer_of_quiet hquiet.1 (hquiet.2 _) (declaredLength_writer hstep hne)

theorem step_keeps_crc {s t : State} (hstep : step s = .next t)
    (hquiet : s.inputsNow.rst = false ∧ ∀ crc, decode s.inputsNow.evWord ≠ .crc crc) : t.crc = s.crc := by
  by_contra hne
  exact no_writer_of_quiet hquiet.1 (hquiet.2 _) (crc_writer hstep hne)

/-- Settles O22: each step keeps the register, and so does the run. -/
theorem lengthAndCrcLeakForward : Obligations.LengthAndCrcLeakForward := by
  intro script later s h hrst
  obtain ⟨t, hrun, hlater⟩ := run_script script later h
  refine ⟨t, hrun, hlater, fun hno => ?_, fun hno => ?_⟩
  · exact run_keeps State.declaredLength (fun now => now.rst = false ∧ ∀ len, decode now.evWord ≠ .control len)
      step_keeps_declaredLength h (fun now hmem => ⟨hrst now hmem, hno now hmem⟩) hrun
  · exact run_keeps State.crc (fun now => now.rst = false ∧ ∀ crc, decode now.evWord ≠ .crc crc)
      step_keeps_crc h (fun now hmem => ⟨hrst now hmem, hno now hmem⟩) hrun

/-! ## The counters (R26, R27, R107) -/

theorem acceptsAck_iff (s : State) :
    acceptsAck s = true ↔ ∃ w, stepKind s s.inputsNow = .accept w ∧ decode w = .ack := by
  cases hk : stepKind s s.inputsNow <;> simp [acceptsAck, hk]

theorem step_framesEmitted {s t : State} (hstep : step s = .next t) (hreset : stepKind s s.inputsNow ≠ .reset) :
    t.framesEmitted = if acceptsAck s then wrapAdd s.params.cntW s.framesEmitted 1 else s.framesEmitted := by
  obtain ⟨hk, -⟩ | ⟨w, hk, -, rfl⟩ | ⟨status, hk, -, rfl⟩ | ⟨hk, rfl⟩ := step_cases hstep
  · exact absurd hk hreset
  · simp [acceptsAck, hk, accepted_framesEmitted]
  · simp [acceptsAck, hk, State.complete_eq]
  · simp [acceptsAck, hk]

/-- Settles O37, by `step_framesEmitted`. -/
theorem framesCountAcceptedAcks : Obligations.FramesCountAcceptedAcks := by
  intro s t hstep hreset
  rw [step_framesEmitted hstep hreset]
  refine ⟨fun hack => if_pos ((acceptsAck_iff s).mpr hack), fun hno => if_neg fun hack => ?_⟩
  obtain ⟨w, hk, hdecode⟩ := (acceptsAck_iff s).mp hack
  exact hno w hk hdecode

/-- The state with its four counters replaced. -/
def State.withCounters (frames malformed overflow txErr : Nat) (s : State) : State :=
  { s with framesEmitted := frames, malformedCount := malformed, overflowCount := overflow, txErrCount := txErr }

/-- The two states agree on every field but the four counters: the second's, in the first, give the second. -/
def State.EqButCounters (s u : State) : Prop :=
  u = s.withCounters u.framesEmitted u.malformedCount u.overflowCount u.txErrCount

theorem State.sampled_withCounters (frames malformed overflow txErr : Nat) (s : State) :
    (s.withCounters frames malformed overflow txErr).sampled = s.sampled.withCounters frames malformed overflow txErr := by
  cases hinputs : s.inputs <;> simp [State.sampled, State.withCounters, hinputs]

theorem accepted_withCounters (i : Instr) (frames malformed overflow txErr : Nat) (s : State) :
    (accepted i s).EqButCounters (accepted i (s.withCounters frames malformed overflow txErr)) := by
  cases i <;> rfl

/-- What a step leaves reads no counter outside the counters. -/
theorem stepped_withCounters (kind : StepKind) (frames malformed overflow txErr : Nat) (s : State) :
    (stepped kind s).EqButCounters (stepped kind (s.withCounters frames malformed overflow txErr)) := by
  cases kind with
  | accept w => exact accepted_withCounters (decode w) _ _ _ _ s
  | _ => rfl

/-- Settles O38: neither the kind of step nor what it leaves reads a counter. -/
theorem countersDecideNothing : Obligations.CountersDecideNothing := by
  intro s t frames malformed overflow txErr hstep
  refine ⟨_, step_eq (s.withCounters frames malformed overflow txErr), ?_⟩
  rw [eq_stepped hstep, State.sampled_withCounters]
  exact stepped_withCounters (stepKind s s.inputsNow) frames malformed overflow txErr s.sampled

/-! ## The presented frame (R25, R34, R90) -/

/-- In a reachable state in SEND the side band presents the accumulator's fields, and all its retained bytes are valid. -/
theorem sideBand_of_inv {s : State} (hinv : s.Inv) (hsend : s.phase = .send) :
    sideBand s =
      { identifier := s.identifier, declaredLength := s.declaredLength, crc := s.crc, payloadLen := s.payloadLen,
        payloadValid := clip s.params.payloadCap s.payloadLen, payload := s.payload } := by
  obtain ⟨-, ⟨hpayload, -⟩, hlatch, -⟩ := hinv
  obtain ⟨-, hframe⟩ := hlatch hsend
  simp [sideBand, hframe, snapshot, CanFrame.payloadValid, ← hpayload]

theorem transferOf_some {s : State} {x : Transfer} (h : transferOf s = some x) :
    x.record = s.outRec ∧ x.frame = sideBand s := by
  unfold transferOf at h
  split at h
  · injection h with h; subst h; exact ⟨rfl, rfl⟩
  all_goals cases h

theorem evReady_outValid_exclusive (s : State) (rst : Bool) : ¬ (evReady s rst = true ∧ outValid s rst = true) := by
  cases hp : s.phase <;> simp [evReady, outValid, hp]

/-- Settles O49, by the invariant's clauses on the latch and the payload's length. -/
theorem presentedFrameIsTheAccumulator : Obligations.PresentedFrameIsTheAccumulator := by
  refine ⟨fun s hinv hsend => ⟨?_, ?_, fun x hx => ?_⟩, fun s rst hidle => ?_, evReady_outValid_exclusive⟩
  · obtain ⟨-, -, hlatch, -⟩ := hinv
    obtain ⟨hrec, hframe⟩ := hlatch hsend
    rw [outputs_outRec_of_send hsend, hrec, hframe]
  · rw [outputs_outFrame_of_send hsend, sideBand_of_inv hinv hsend]
  · obtain ⟨hrecord, hframe⟩ := transferOf_some hx
    exact ⟨by rw [outputs_outRec_of_send hsend, hrecord], by rw [outputs_outFrame_of_send hsend, hframe]⟩
  · simp [outputs, outValid_of_idle hidle]

/-! ## The reset values (R33) -/

/-- Settles O20: the fields of the reset state as written. -/
theorem resetStateValues : Obligations.ResetStateValues :=
  ⟨rfl, rfl, rfl, rfl, rfl, rfl, rfl, rfl, rfl, rfl, rfl⟩

end Sys2Proof.Machine

/-! PROOFS. The family of spec/20_memory.md: the payload append position by position (R38). -/

namespace Sys2Proof.Machine

/-! ## The append, position by position -/

/-- A position the view holds keeps its byte. -/
theorem appendView_getElem?_stored {cap : Bound} {view : List Byte} {k : Nat}
    (hview : withinBound cap view.length = true) (hk : k < view.length) (bytes : List Byte) :
    (appendView cap view bytes)[k]? = view[k]? := by
  rw [appendView, takeBound_getElem? hview hk, List.getElem?_append_left hk]

/-- Byte `j` lands `j` past the view, where the buffer reaches so far. -/
theorem appendView_getElem?_appended {cap : Bound} {view : List Byte} {j : Nat}
    (hfits : withinBound cap (view.length + j + 1) = true) (bytes : List Byte) :
    (appendView cap view bytes)[view.length + j]? = bytes[j]? := by
  rw [appendView, takeBound_getElem? hfits (Nat.lt_succ_self _), List.getElem?_append_right (Nat.le_add_right _ _),
    Nat.add_sub_cancel_left]

/-- A full buffer stores nothing more. -/
theorem appendView_of_full {cap : Bound} {view : List Byte} (hfull : cap = .finite view.length) (bytes : List Byte) :
    appendView cap view bytes = view := by
  rw [hfull]
  exact List.take_left

/-! ## The view of a state that meets the invariant (R34(a)) -/

theorem State.Inv.payload_length {s : State} (h : s.Inv) : s.payload.length = clip s.params.payloadCap s.payloadLen := by
  obtain ⟨-, ⟨hpayload, -⟩, -⟩ := h
  exact hpayload

theorem clip_of_lt_of_withinBound {b : Bound} {n m : Nat} (hlt : n < m) (hm : withinBound b m = true) : clip b n = n := by
  have hmin : min (clip b n) m = min n m := min_clip_of_withinBound hm n
  omega

/-- Legal parameters count at least as far as they store (R9), so a saturated counter means a full buffer. -/
theorem legalParams_clip_saturated {p : Params} (legal : legalParams p = true) {n : Nat}
    (hsat : maxOfWidth p.lenW = .finite n) : p.payloadCap = .finite (clip p.payloadCap n) := by
  simp only [legalParams, Bool.and_eq_true] at legal
  obtain ⟨-, hcap⟩ := legal
  cases hc : p.payloadCap with
  | finite c =>
    simp only [hc, hsat, withinBound, decide_eq_true_eq] at hcap
    rw [clip, Nat.min_eq_right hcap]
  | inf =>
    simp only [hc, decide_eq_true_eq] at hcap
    rw [hcap] at hsat
    cases hsat

/-- Settles O24: stored positions, appended positions and the full buffer, by the invariant's length of the view. -/
theorem appendByPosition : Obligations.AppendByPosition := by
  intro bytes s hinv hidle
  refine ⟨_, exec_of_idle hidle _, rfl, rfl, fun k hk => ?stored, fun j _ hfits => ?appended, fun hsat => ?saturated⟩
  case stored =>
    have hview : withinBound s.params.payloadCap s.payload.length = true := hinv.payload_length ▸ withinBound_clip _ _
    exact appendView_getElem?_stored hview hk bytes
  case appended =>
    have hlen : s.payload.length = s.payloadLen :=
      hinv.payload_length.trans (clip_of_lt_of_withinBound (by omega) hfits)
    rw [← hlen] at hfits ⊢
    exact appendView_getElem?_appended hfits bytes
  case saturated =>
    have hfull : s.params.payloadCap = .finite s.payload.length :=
      hinv.payload_length ▸ legalParams_clip_saturated hinv.1 hsat
    exact appendView_of_full hfull bytes

end Sys2Proof.Machine

/-! PROOFS. The family of spec/30_encoding.md: decoder and encoder undo each other (R54 to R63), the ignored bits (R62), the opcode
table's rows, the upstream's DATA words (R65, R66) and the port that is not ready (R52). -/

namespace Sys2Proof.Machine

/-! ## The decoder, one equation per kind (R63) -/

theorem decode_of_ident {w : EventWord} (h : wordKind w = 0x01) :
    decode w = .ident (wordIdentifier w) (wordExtended w) (wordRemote w) := by
  simp [decode, h]

theorem decode_of_control {w : EventWord} (h : wordKind w = 0x02) : decode w = .control (wordLength w) := by
  simp [decode, h]

theorem decode_of_data {w : EventWord} (h : wordKind w = 0x03) (hcount : (wordCount w).toNat ≤ 8) :
    decode w = .data (wordLanes w (wordCount w).toNat) := by
  simp [decode, decodeData, h, hcount]

theorem decode_of_dataRsv {w : EventWord} (h : wordKind w = 0x03) (hcount : 8 < (wordCount w).toNat) :
    decode w = .dataRsv (wordCount w) := by
  simp [decode, decodeData, h, hcount]

theorem decode_of_crc {w : EventWord} (h : wordKind w = 0x04) : decode w = .crc (wordCrc w) := by
  simp [decode, h]

theorem decode_of_ack {w : EventWord} (h : wordKind w = 0x05) : decode w = .ack := by
  simp [decode, h]

/-- An ignored kind is none of the five defined ones (R60). -/
theorem kind_undefined : ∀ {kind : Byte}, kind = 0x00 ∨ 0x06 ≤ kind.toNat →
    kind ≠ 0x01 ∧ kind ≠ 0x02 ∧ kind ≠ 0x03 ∧ kind ≠ 0x04 ∧ kind ≠ 0x05 := by decide

theorem decode_of_ignored {w : EventWord} (h : wordKind w = 0x00 ∨ 0x06 ≤ (wordKind w).toNat) :
    decode w = .ignored (wordKind w) := by
  obtain ⟨h1, h2, h3, h4, h5⟩ := kind_undefined h
  rw [decode, if_neg h1, if_neg h2, if_neg h3, if_neg h4, if_neg h5]

/-- Every word is of one of the seven formats (R54, R58). -/
theorem word_cases (w : EventWord) :
    wordKind w = 0x01 ∨ wordKind w = 0x02 ∨ (wordKind w = 0x03 ∧ (wordCount w).toNat ≤ 8) ∨
    (wordKind w = 0x03 ∧ 8 < (wordCount w).toNat) ∨ wordKind w = 0x04 ∨ wordKind w = 0x05 ∨
    (wordKind w = 0x00 ∨ 0x06 ≤ (wordKind w).toNat) := by
  have hkind : ∀ kind : Byte, kind = 0x01 ∨ kind = 0x02 ∨ kind = 0x03 ∨ kind = 0x04 ∨ kind = 0x05 ∨
      (kind = 0x00 ∨ 0x06 ≤ kind.toNat) := by decide
  have hw := hkind (wordKind w)
  have hcount := Nat.lt_or_ge 8 (wordCount w).toNat
  tauto

/-! ## The encoder, one equation per field -/

theorem wordKind_encode (i : Instr) : wordKind (encode i) = Laws.kindCode i := by
  cases i <;> exact Laws.wordKind_append _ _

/-- A field above the kind is the same field, 8 bits lower, of what stands above the kind. -/
theorem extractLsb'_above_kind {n : Nat} (high : BitVec n) (kind : Byte) (start len : Nat) :
    (high ++ kind).extractLsb' (8 + start) len = high.extractLsb' start len := by
  rw [BitVec.extractLsb'_append_eq_of_le (Nat.le_add_right 8 start), Nat.add_sub_cancel_left]

theorem wordIdentifier_encode (identifier : Word) (isExtended isRemote : Bool) :
    wordIdentifier (encode (.ident identifier isExtended isRemote)) = identifier :=
  (extractLsb'_above_kind _ _ 0 32).trans BitVec.extractLsb'_append_eq_right

theorem wordExtended_encode (identifier : Word) (isExtended isRemote : Bool) :
    wordExtended (encode (.ident identifier isExtended isRemote)) = isExtended := by
  rw [wordExtended, encode]
  repeat rw [BitVec.getLsbD_append]
  simp

theorem wordRemote_encode (identifier : Word) (isExtended isRemote : Bool) :
    wordRemote (encode (.ident identifier isExtended isRemote)) = isRemote := by
  rw [wordRemote, encode]
  repeat rw [BitVec.getLsbD_append]
  simp

theorem wordLength_encode (len : Byte) : wordLength (encode (.control len)) = len :=
  (extractLsb'_above_kind _ _ 0 8).trans BitVec.extractLsb'_append_eq_right

theorem wordCrc_encode (crc : Word) : wordCrc (encode (.crc crc)) = crc :=
  (extractLsb'_above_kind _ _ 0 32).trans BitVec.extractLsb'_append_eq_right

theorem wordCount_encode_dataRsv (count : BitVec 4) : wordCount (encode (.dataRsv count)) = count :=
  (extractLsb'_above_kind _ _ 0 4).trans BitVec.extractLsb'_append_eq_right

theorem wordCount_encode_data {bytes : List Byte} (h : bytes.length ≤ 8) :
    (wordCount (encode (.data bytes))).toNat = bytes.length := by
  have hcount : wordCount (encode (.data bytes)) = BitVec.ofNat 4 bytes.length :=
    (extractLsb'_above_kind _ _ 0 4).trans BitVec.extractLsb'_append_eq_right
  rw [hcount, BitVec.toNat_ofNat, Nat.mod_eq_of_lt (by omega)]

theorem packLanes_lane (bytes : List Byte) {j : Nat} (hj : j < 8) :
    (packLanes bytes).extractLsb' (8 * j) 8 = bytes.getD j 0 := by
  unfold packLanes
  interval_cases j <;>
    simp only [BitVec.extractLsb'_append_eq_of_le, BitVec.extractLsb'_append_eq_right, BitVec.extractLsb'_eq_self,
      Nat.reduceMul, Nat.reduceSub, Nat.reduceLeDiff]

theorem wordLane_encode_data (bytes : List Byte) {j : Nat} (hj : j < 8) :
    wordLane (encode (.data bytes)) j = bytes.getD j 0 := by
  have hlane : wordLane (encode (.data bytes)) j = (packLanes bytes).extractLsb' (8 * j) 8 := by
    rw [wordLane, encode, show 16 + 8 * j = 8 + (4 + (4 + 8 * j)) by omega, extractLsb'_above_kind,
      BitVec.extractLsb'_append_eq_of_le (by omega), BitVec.extractLsb'_append_eq_of_le (by omega)]
    congr 1; omega
  rw [hlane, packLanes_lane bytes hj]

theorem wordLanes_encode_data {bytes : List Byte} (h : bytes.length ≤ 8) :
    wordLanes (encode (.data bytes)) bytes.length = bytes := by
  apply List.ext_getElem
  · simp [wordLanes]
  · intro j _ hj
    have hget : bytes.getD j 0 = bytes[j] := List.getD_eq_getElem _ _ hj
    simp only [wordLanes, List.getElem_map, List.getElem_range]
    rw [wordLane_encode_data bytes (by omega), hget]

/-! ## Decoding and encoding undo each other -/

/-- Settles O3, per event: its kind selects the format, and each field reads its operand. -/
theorem decodeEncodeRoundTrip : Obligations.DecodeEncodeRoundTrip := by
  intro i hwf
  have hkind := wordKind_encode i
  cases i with
  | ident identifier isExtended isRemote =>
    rw [decode_of_ident hkind, wordIdentifier_encode, wordExtended_encode, wordRemote_encode]
  | control len => rw [decode_of_control hkind, wordLength_encode]
  | data bytes =>
    have hlen : bytes.length ≤ 8 := of_decide_eq_true hwf
    have hcount := wordCount_encode_data hlen
    rw [decode_of_data hkind (hcount ▸ hlen), hcount, wordLanes_encode_data hlen]
  | dataRsv count =>
    have hreserved : 8 < count.toNat := of_decide_eq_true hwf
    have hcount := wordCount_encode_dataRsv count
    rw [decode_of_dataRsv hkind (by rwa [hcount]), hcount]
  | crc crc => rw [decode_of_crc hkind, wordCrc_encode]
  | ack => exact decode_of_ack hkind
  | ignored kind =>
    have hundefined : kind = 0x00 ∨ 0x06 ≤ kind.toNat := by simpa [Instr.WellFormed, Instr.wellFormed] using hwf
    rw [decode_of_ignored (by rwa [hkind]), hkind, Laws.kindCode]

/-- Settles O4, per format of the word. -/
theorem decodedEventIsWellFormed : Obligations.DecodedEventIsWellFormed := by
  intro w
  obtain h | h | ⟨h, hcount⟩ | ⟨h, hcount⟩ | h | h | h := word_cases w
  · rw [decode_of_ident h]; rfl
  · rw [decode_of_control h]; rfl
  · rw [decode_of_data h hcount]
    simpa [Instr.WellFormed, Instr.wellFormed, wordLanes] using hcount
  · rw [decode_of_dataRsv h hcount]
    exact decide_eq_true hcount
  · rw [decode_of_crc h]; rfl
  · rw [decode_of_ack h]; rfl
  · rw [decode_of_ignored h]
    simpa [Instr.WellFormed, Instr.wellFormed] using h

/-! ## The masks of the formats -/

/-- The word whose low `n` bits are 1: the named bits of every format but DATA (R55 to R61). -/
def lowMask (n : Nat) : EventWord := BitVec.ofNat 80 (2 ^ n - 1)

/-- The bits DATA names: the count and the kind, and the lanes that the count names (R58). -/
def dataMask (count : Nat) : EventWord := BitVec.ofNat 80 ((2 ^ (8 * count) - 1) * 2 ^ 16) ||| lowMask 12

theorem namedBits_of_ident {w : EventWord} (h : wordKind w = 0x01) : namedBits w = lowMask 42 := if_pos h

theorem namedBits_of_control {w : EventWord} (h : wordKind w = 0x02) : namedBits w = lowMask 16 := by
  simp [namedBits, lowMask, h]

theorem namedBits_of_data {w : EventWord} (h : wordKind w = 0x03) (hcount : (wordCount w).toNat ≤ 8) :
    namedBits w = dataMask (wordCount w).toNat := by
  simp [namedBits, dataMask, lowMask, h, hcount]

theorem namedBits_of_dataRsv {w : EventWord} (h : wordKind w = 0x03) (hcount : 8 < (wordCount w).toNat) :
    namedBits w = lowMask 12 := by
  simp [namedBits, lowMask, h, hcount]

theorem namedBits_of_crc {w : EventWord} (h : wordKind w = 0x04) : namedBits w = lowMask 40 := by
  simp [namedBits, lowMask, h]

theorem namedBits_of_ack {w : EventWord} (h : wordKind w = 0x05) : namedBits w = lowMask 8 := by
  simp [namedBits, lowMask, h]

theorem namedBits_of_ignored {w : EventWord} (h : wordKind w = 0x00 ∨ 0x06 ≤ (wordKind w).toNat) :
    namedBits w = lowMask 8 := by
  obtain ⟨h1, h2, h3, h4, -⟩ := kind_undefined h
  rw [namedBits, if_neg h1, if_neg h2, if_neg h3, if_neg h4]
  rfl

theorem getLsbD_lowMask (n : Nat) {k : Nat} (hk : k < 80) : (lowMask n).getLsbD k = decide (k < n) := by
  rw [lowMask, BitVec.getLsbD_ofNat, Nat.testBit_two_pow_sub_one, decide_eq_true hk, Bool.true_and]

theorem getLsbD_dataMask (count : Nat) {k : Nat} (hk : k < 80) :
    (dataMask count).getLsbD k = (decide (16 ≤ k) && decide (k - 16 < 8 * count) || decide (k < 12)) := by
  rw [dataMask, BitVec.getLsbD_or, getLsbD_lowMask 12 hk, BitVec.getLsbD_ofNat, Nat.testBit_mul_two_pow,
    Nat.testBit_two_pow_sub_one, decide_eq_true hk, Bool.true_and]

/-! ## The fields of a masked word -/

section MaskedFields

variable (w : EventWord) {start len : Nat}

/-- Masks whose bits agree throughout a field leave the same field. -/
theorem extractLsb'_and_congr {mask other : EventWord}
    (h : ∀ k, start ≤ k → k < start + len → mask.getLsbD k = other.getLsbD k) :
    (w &&& mask).extractLsb' start len = (w &&& other).extractLsb' start len := by
  apply BitVec.eq_of_getLsbD_eq
  intro k hk
  simp only [BitVec.getLsbD_extractLsb', BitVec.getLsbD_and, h (start + k) (by omega) (by omega)]

theorem extractLsb'_within_lowMask {n : Nat} (hword : start + len ≤ 80) (h : start + len ≤ n) :
    (w &&& lowMask n).extractLsb' start len = w.extractLsb' start len := by
  rw [extractLsb'_and_congr w (other := BitVec.allOnes 80), BitVec.and_allOnes]
  intro k _ hk
  rw [getLsbD_lowMask n (by omega), BitVec.getLsbD_allOnes, decide_eq_true, decide_eq_true] <;> omega

theorem extractLsb'_above_lowMask {n : Nat} (hword : start + len ≤ 80) (h : n ≤ start) :
    (w &&& lowMask n).extractLsb' start len = 0 := by
  rw [extractLsb'_and_congr w (other := 0)]
  · simp
  · intro k hk _
    rw [getLsbD_lowMask n (by omega), decide_eq_false (by omega)]
    simp

theorem extractLsb'_below_lanes (count : Nat) (h : start + len ≤ 16) :
    (w &&& dataMask count).extractLsb' start len = (w &&& lowMask 12).extractLsb' start len := by
  refine extractLsb'_and_congr w fun k _ hk => ?_
  rw [getLsbD_dataMask count (by omega), getLsbD_lowMask 12 (by omega), decide_eq_false (show ¬ 16 ≤ k by omega),
    Bool.false_and, Bool.false_or]

end MaskedFields

theorem getLsbD_packLanes (bytes : List Byte) {k : Nat} (hk : k < 64) :
    (packLanes bytes).getLsbD k = (bytes.getD (k / 8) 0).getLsbD (k % 8) := by
  rw [← packLanes_lane bytes (show k / 8 < 8 by omega), BitVec.getLsbD_extractLsb', Nat.div_add_mod,
    decide_eq_true (Nat.mod_lt k (by decide)), Bool.true_and]

theorem wordLanes_getD (w : EventWord) (count j : Nat) :
    (wordLanes w count).getD j 0 = if j < count then wordLane w j else 0 := by
  by_cases hj : j < count <;> simp [wordLanes, List.getD_eq_getElem?_getD, hj]

/-- Packing the lanes a count names keeps their bits and clears the others. -/
theorem packLanes_wordLanes (w : EventWord) (count : Nat) :
    packLanes (wordLanes w count) = (w &&& dataMask count).extractLsb' 16 64 := by
  apply BitVec.eq_of_getLsbD_eq
  intro k hk
  have hbit : 16 + 8 * (k / 8) + k % 8 = 16 + k := by omega
  rw [getLsbD_packLanes _ hk, wordLanes_getD, BitVec.getLsbD_extractLsb', BitVec.getLsbD_and,
    getLsbD_dataMask count (by omega), decide_eq_false (show ¬ 16 + k < 12 by omega), Bool.or_false]
  by_cases hcount : k < 8 * count
  · rw [if_pos (by omega), wordLane, BitVec.getLsbD_extractLsb', hbit]
    simp [hk, hcount, Nat.mod_lt]
  · rw [if_neg (by omega)]
    simp [hcount]

/-! ## Encoding what a word decodes to, per format -/

theorem ofBool_getLsbD_eq (w : EventWord) (k : Nat) : BitVec.ofBool (w.getLsbD k) = w.extractLsb' k 1 := by
  apply BitVec.eq_of_getLsbD_eq
  intro i hi
  obtain rfl : i = 0 := by omega
  simp

theorem cast_extractLsb'_self {n : Nat} (h : n = 80) (v : EventWord) : (v.extractLsb' 0 n).cast h = v := by
  subst h
  exact BitVec.extractLsb'_eq_self

/-- A word masked to its kind and one operand field above it. -/
theorem and_lowMask_operand {rest len : Nat} (h : rest + len + 8 = 80) (w : EventWord) :
    w &&& lowMask (8 + len) = ((0 : BitVec rest) ++ w.extractLsb' 8 len ++ wordKind w).cast h := by
  have hrest : (w &&& lowMask (8 + len)).extractLsb' (8 + len) rest = 0 :=
    extractLsb'_above_lowMask w (by omega) (Nat.le_refl _)
  have hoperand : (w &&& lowMask (8 + len)).extractLsb' 8 len = w.extractLsb' 8 len :=
    extractLsb'_within_lowMask w (by omega) (Nat.le_refl _)
  have hkind : (w &&& lowMask (8 + len)).extractLsb' 0 8 = wordKind w :=
    extractLsb'_within_lowMask w (by decide) (by omega)
  rw [← hrest, ← hoperand, ← hkind, BitVec.extractLsb'_append_extractLsb'_eq_extractLsb' rfl,
    BitVec.extractLsb'_append_extractLsb'_eq_extractLsb' (Nat.zero_add 8).symm, cast_extractLsb'_self]

/-- A word masked to its kind. -/
theorem and_lowMask_kind (w : EventWord) : w &&& lowMask 8 = (0 : BitVec 72) ++ wordKind w := by
  have hrest : (w &&& lowMask 8).extractLsb' 8 72 = 0 := extractLsb'_above_lowMask w (by decide) (by decide)
  have hkind : (w &&& lowMask 8).extractLsb' 0 8 = wordKind w := extractLsb'_within_lowMask w (by decide) (by decide)
  rw [← hrest, ← hkind]
  exact (BitVec.extractLsb'_append_extractLsb' (w := 72) (len := 8)).symm

/-- A word masked to its kind and its count. -/
theorem and_lowMask_count (w : EventWord) : w &&& lowMask 12 = (0 : BitVec 68) ++ wordCount w ++ wordKind w :=
  and_lowMask_operand (rest := 68) (len := 4) rfl w

/-- A word is IDENT's fields side by side (R55). -/
theorem ident_fields (v : EventWord) :
    v.extractLsb' 42 38 ++ v.extractLsb' 41 1 ++ v.extractLsb' 40 1 ++ v.extractLsb' 8 32 ++ v.extractLsb' 0 8 = v := by
  simp only [BitVec.extractLsb'_append_extractLsb'_eq_extractLsb']
  exact BitVec.extractLsb'_eq_self

/-- A word is DATA's fields side by side (R58). -/
theorem data_fields (v : EventWord) :
    v.extractLsb' 16 64 ++ v.extractLsb' 12 4 ++ v.extractLsb' 8 4 ++ v.extractLsb' 0 8 = v := by
  simp only [BitVec.extractLsb'_append_extractLsb'_eq_extractLsb']
  exact BitVec.extractLsb'_eq_self

theorem encode_ident_of_word {w : EventWord} (h : wordKind w = 0x01) :
    encode (.ident (wordIdentifier w) (wordExtended w) (wordRemote w)) = w &&& lowMask 42 := by
  have hfields := ident_fields (w &&& lowMask 42)
  simp (disch := decide) only [extractLsb'_within_lowMask, extractLsb'_above_lowMask] at hfields
  rw [encode, ← h, wordExtended, wordRemote, ofBool_getLsbD_eq, ofBool_getLsbD_eq]
  exact hfields

theorem encode_control_of_word {w : EventWord} (h : wordKind w = 0x02) :
    encode (.control (wordLength w)) = w &&& lowMask 16 := by
  rw [encode, ← h]
  exact (and_lowMask_operand (rest := 64) (len := 8) rfl w).symm

theorem encode_data_of_word {w : EventWord} (h : wordKind w = 0x03) :
    encode (.data (wordLanes w (wordCount w).toNat)) = w &&& dataMask (wordCount w).toNat := by
  have hfields := data_fields (w &&& dataMask (wordCount w).toNat)
  simp (disch := decide) only [extractLsb'_below_lanes, extractLsb'_within_lowMask, extractLsb'_above_lowMask] at hfields
  have hlen : BitVec.ofNat 4 (wordLanes w (wordCount w).toNat).length = wordCount w := by simp [wordLanes]
  rw [encode, ← h, hlen, packLanes_wordLanes]
  exact hfields

theorem encode_dataRsv_of_word {w : EventWord} (h : wordKind w = 0x03) :
    encode (.dataRsv (wordCount w)) = w &&& lowMask 12 := by
  rw [encode, ← h, and_lowMask_count]

theorem encode_crc_of_word {w : EventWord} (h : wordKind w = 0x04) : encode (.crc (wordCrc w)) = w &&& lowMask 40 := by
  rw [encode, ← h]
  exact (and_lowMask_operand (rest := 40) (len := 32) rfl w).symm

theorem encode_ack_of_word {w : EventWord} (h : wordKind w = 0x05) : encode .ack = w &&& lowMask 8 := by
  rw [encode, ← h, and_lowMask_kind]

theorem encode_ignored_of_word (w : EventWord) : encode (.ignored (wordKind w)) = w &&& lowMask 8 :=
  (and_lowMask_kind w).symm

/-- Settles O5, per format of the word. -/
theorem encodeDecodeClearsIgnoredBits : Obligations.EncodeDecodeClearsIgnoredBits := by
  intro w
  obtain h | h | ⟨h, hcount⟩ | ⟨h, hcount⟩ | h | h | h := word_cases w
  · rw [decode_of_ident h, encode_ident_of_word h, namedBits_of_ident h]
  · rw [decode_of_control h, encode_control_of_word h, namedBits_of_control h]
  · rw [decode_of_data h hcount, encode_data_of_word h, namedBits_of_data h hcount]
  · rw [decode_of_dataRsv h hcount, encode_dataRsv_of_word h, namedBits_of_dataRsv h hcount]
  · rw [decode_of_crc h, encode_crc_of_word h, namedBits_of_crc h]
  · rw [decode_of_ack h, encode_ack_of_word h, namedBits_of_ack h]
  · rw [decode_of_ignored h, encode_ignored_of_word, namedBits_of_ignored h]

/-! ## Ignored bits have no effect (R62) -/

/-- Words that agree under a mask agree in every field the mask names whole. -/
theorem field_eq_of_named {w v mask : EventWord} {start len : Nat} (heq : w &&& mask = v &&& mask)
    (hmask : mask.extractLsb' start len = BitVec.allOnes len) : w.extractLsb' start len = v.extractLsb' start len := by
  simpa [BitVec.extractLsb'_and, hmask] using congrArg (BitVec.extractLsb' start len) heq

theorem dataMask_names (count : Nat) {start len : Nat} (h : (lowMask 12).extractLsb' start len = BitVec.allOnes len) :
    (dataMask count).extractLsb' start len = BitVec.allOnes len := by
  rw [dataMask, BitVec.extractLsb'_or, h, BitVec.or_allOnes]

theorem namedBits_names_kind (w : EventWord) : (namedBits w).extractLsb' 0 8 = BitVec.allOnes 8 := by
  obtain h | h | ⟨h, hcount⟩ | ⟨h, hcount⟩ | h | h | h := word_cases w
  · rw [namedBits_of_ident h]; rfl
  · rw [namedBits_of_control h]; rfl
  · rw [namedBits_of_data h hcount]; exact dataMask_names _ rfl
  · rw [namedBits_of_dataRsv h hcount]; rfl
  · rw [namedBits_of_crc h]; rfl
  · rw [namedBits_of_ack h]; rfl
  · rw [namedBits_of_ignored h]; rfl

theorem namedBits_names_count {w : EventWord} (h : wordKind w = 0x03) :
    (namedBits w).extractLsb' 8 4 = BitVec.allOnes 4 := by
  obtain hcount | hcount := Nat.lt_or_ge 8 (wordCount w).toNat
  · rw [namedBits_of_dataRsv h hcount]; rfl
  · rw [namedBits_of_data h hcount]; exact dataMask_names _ rfl

/-- The kind and, for kind `0x03`, the count settle which bits are named. -/
theorem namedBits_congr {w v : EventWord} (hkind : wordKind v = wordKind w)
    (hcount : wordKind w = 0x03 → wordCount v = wordCount w) : namedBits v = namedBits w := by
  unfold namedBits
  rw [hkind]
  by_cases h : wordKind w = 0x03
  · rw [hcount h]
  · simp only [if_neg h]

theorem decode_and_namedBits (w : EventWord) : decode (w &&& namedBits w) = decode w := by
  rw [← encodeDecodeClearsIgnoredBits w, decodeEncodeRoundTrip _ (decodedEventIsWellFormed w)]

/-- Settles O6: such words name the same bits, and a word decodes as its named bits do. -/
theorem ignoredBitsHaveNoEffect : Obligations.IgnoredBitsHaveNoEffect := by
  intro w v heq
  have hnamed : namedBits v = namedBits w :=
    namedBits_congr (field_eq_of_named heq (namedBits_names_kind w)).symm
      fun h => (field_eq_of_named heq (namedBits_names_count h)).symm
  have hdecode : decode v = decode w := by
    rw [← decode_and_namedBits v, hnamed, ← heq, decode_and_namedBits]
  exact ⟨hdecode, fun s => by rw [hdecode]⟩

/-! ## The opcode table's rows -/

/-- A row reads only the bits of its mask. -/
theorem matchesWord_congr {r : OpcodeRow} {w v low : EventWord} (heq : w &&& low = v &&& low)
    (hmask : low &&& r.mask = r.mask) : r.matchesWord w = r.matchesWord v := by
  rw [OpcodeRow.matchesWord, OpcodeRow.matchesWord, ← hmask, ← BitVec.and_assoc, ← BitVec.and_assoc, heq]

/-- Every row reads the kind and the count at most, and a row that reads the count is of kind `0x03`. -/
theorem opcodeRows_masks : ∀ r ∈ opcodeRows, lowMask 12 &&& r.mask = r.mask ∧
    (lowMask 8 &&& r.mask = r.mask ∨ (r.mask &&& lowMask 8 = lowMask 8 ∧ r.pattern &&& lowMask 8 = 0x03)) := by decide

/-- The mnemonics of the rows a word is of. -/
def rowMnemonics (w : EventWord) : List String := (opcodeRows.filter (fun r => r.matchesWord w)).map OpcodeRow.mnemonic

theorem rowMnemonics_congr {w v : EventWord} (h : ∀ r ∈ opcodeRows, r.matchesWord w = r.matchesWord v) :
    rowMnemonics w = rowMnemonics v := by
  rw [rowMnemonics, List.filter_congr h, rowMnemonics]

theorem rowMnemonics_of_count {w v : EventWord} (hkind : wordKind w = wordKind v) (hcount : wordCount w = wordCount v) :
    rowMnemonics w = rowMnemonics v := by
  have heq : w &&& lowMask 12 = v &&& lowMask 12 := by rw [and_lowMask_count, and_lowMask_count, hkind, hcount]
  exact rowMnemonics_congr fun r hr => matchesWord_congr heq (opcodeRows_masks r hr).1

theorem matchesWord_of_otherKind {r : OpcodeRow} {w : EventWord} (hw : wordKind w ≠ 0x03)
    (hmask : r.mask &&& lowMask 8 = lowMask 8) (hpattern : r.pattern &&& lowMask 8 = 0x03) : r.matchesWord w = false := by
  apply beq_false_of_ne
  intro hmatch
  have hlow : w &&& lowMask 8 = 0x03 := by rw [← hmask, ← BitVec.and_assoc, hmatch, hpattern]
  have hkind : (w &&& lowMask 8).extractLsb' 0 8 = wordKind w := extractLsb'_within_lowMask w (by decide) (by decide)
  exact hw (by rw [← hkind, hlow]; rfl)

theorem rowMnemonics_of_kind {w v : EventWord} (hkind : wordKind w = wordKind v) (hv : wordKind v ≠ 0x03) :
    rowMnemonics w = rowMnemonics v := by
  have heq : w &&& lowMask 8 = v &&& lowMask 8 := by rw [and_lowMask_kind, and_lowMask_kind, hkind]
  refine rowMnemonics_congr fun r hr => ?_
  obtain ⟨-, hmask | ⟨hmask, hpattern⟩⟩ := opcodeRows_masks r hr
  · exact matchesWord_congr heq hmask
  · rw [matchesWord_of_otherKind (hkind ▸ hv) hmask hpattern, matchesWord_of_otherKind hv hmask hpattern]

theorem rowMnemonics_encode_ignored : ∀ kind : Byte, kind = 0x00 ∨ 0x06 ≤ kind.toNat →
    rowMnemonics (encode (.ignored kind)) = ["IGNORED"] := by decide

theorem rowMnemonics_encode_dataRsv : ∀ count : BitVec 4,
    rowMnemonics (encode (.dataRsv count)) = [if count.toNat ≤ 8 then "DATA" else "DATA_RSV"] := by decide

theorem rowMnemonics_of_dataKind {w : EventWord} (h : wordKind w = 0x03) :
    rowMnemonics w = [if (wordCount w).toNat ≤ 8 then "DATA" else "DATA_RSV"] := by
  rw [rowMnemonics_of_count (v := encode (.dataRsv (wordCount w))) (by rw [h, wordKind_encode, Laws.kindCode])
    (wordCount_encode_dataRsv _).symm, rowMnemonics_encode_dataRsv]

theorem rowMnemonics_of_otherKind {w : EventWord} {kind : Byte} (h : wordKind w = kind) (hkind : kind ≠ 0x03) :
    rowMnemonics w = rowMnemonics (encode (.ignored kind)) := by
  have hencode : wordKind (encode (.ignored kind)) = kind := wordKind_encode (.ignored kind)
  exact rowMnemonics_of_kind (h.trans hencode.symm) (hencode.symm ▸ hkind)

/-- Settles O7, per format of the word. -/
theorem opcodeRowsPartitionTheWords : Obligations.OpcodeRowsPartitionTheWords := by
  intro w
  change rowMnemonics w = _
  obtain h | h | ⟨h, hcount⟩ | ⟨h, hcount⟩ | h | h | h := word_cases w
  · rw [decode_of_ident h, rowMnemonics_of_otherKind h (by decide), Instr.mnemonic]; decide
  · rw [decode_of_control h, rowMnemonics_of_otherKind h (by decide), Instr.mnemonic]; decide
  · rw [decode_of_data h hcount, rowMnemonics_of_dataKind h, if_pos hcount, Instr.mnemonic]
  · rw [decode_of_dataRsv h hcount, rowMnemonics_of_dataKind h, if_neg (Nat.not_le.mpr hcount), Instr.mnemonic]
  · rw [decode_of_crc h, rowMnemonics_of_otherKind h (by decide), Instr.mnemonic]; decide
  · rw [decode_of_ack h, rowMnemonics_of_otherKind h (by decide), Instr.mnemonic]; decide
  · obtain ⟨-, -, hdata, -⟩ := kind_undefined h
    rw [decode_of_ignored h, rowMnemonics_of_otherKind rfl hdata, rowMnemonics_encode_ignored _ h, Instr.mnemonic]

/-! ## The upstream's words (R65) -/

/-- The first `n` chunks of 8 are the first `8 * n` bytes. -/
theorem chunks_flatten (bytes : List Byte) (n : Nat) :
    ((List.range n).map fun k => (bytes.drop (8 * k)).take 8).flatten = bytes.take (8 * n) := by
  induction n with
  | zero => simp
  | succ n ih => rw [List.range_succ, List.map_append, List.flatten_append, ih, Nat.mul_succ, List.take_add]; simp

theorem dataChunks_length (bytes : List Byte) : (dataChunks bytes).length = max 1 ((bytes.length + 7) / 8) := by
  simp [dataChunks]

theorem dataChunks_ne_nil (bytes : List Byte) : dataChunks bytes ≠ [] := by
  rw [← List.length_pos_iff, dataChunks_length]
  omega

theorem dataChunks_flatten (bytes : List Byte) : (dataChunks bytes).flatten = bytes := by
  rw [dataChunks, chunks_flatten, List.take_of_length_le (by omega)]

theorem length_le_of_mem_dataChunks {bytes chunk : List Byte} (h : chunk ∈ dataChunks bytes) : chunk.length ≤ 8 := by
  obtain ⟨k, -, rfl⟩ := List.mem_map.mp h
  exact List.length_take_le 8 _

/-- Every chunk but the last is full. -/
theorem dataChunks_getElem_length {bytes : List Byte} {k : Nat} (h : k + 1 < (dataChunks bytes).length) :
    (dataChunks bytes)[k]?.map List.length = some 8 := by
  have hrange : k < max 1 ((bytes.length + 7) / 8) := dataChunks_length bytes ▸ Nat.lt_of_succ_lt h
  have hfull : 8 ≤ bytes.length - 8 * k := by
    rw [dataChunks_length] at h
    omega
  simp [dataChunks, List.getElem?_range hrange, hfull]

/-- The upstream sends only what the encoding can carry; an `other` tag's kind must be one the format ignores. -/
theorem wellFormed_of_mem_instrs {e : FieldEvent} (hother : ∀ kind, e = .other kind → kind = 0x00 ∨ 0x06 ≤ kind.toNat)
    {i : Instr} (hi : i ∈ e.instrs) : i.WellFormed := by
  cases e with
  | dataField bytes =>
    obtain ⟨chunk, hchunk, rfl⟩ := List.mem_map.mp hi
    exact decide_eq_true (length_le_of_mem_dataChunks hchunk)
  | other kind =>
    obtain rfl := List.mem_singleton.mp hi
    simpa [Instr.WellFormed, Instr.wellFormed] using hother kind rfl
  | identifierField identifier isExtended isRemote => obtain rfl := List.mem_singleton.mp hi; rfl
  | controlField len => obtain rfl := List.mem_singleton.mp hi; rfl
  | crcField crc => obtain rfl := List.mem_singleton.mp hi; rfl
  | ackField => obtain rfl := List.mem_singleton.mp hi; rfl

/-- Settles O26: the instructions are well-formed, so the round trip gives them back. -/
theorem upstreamWordsDecode : Obligations.UpstreamWordsDecode := by
  refine ⟨fun e hother => ?_, fun bytes => ⟨dataChunks_flatten bytes, dataChunks_length bytes,
    fun _ hchunk => length_le_of_mem_dataChunks hchunk, fun _ hk => dataChunks_getElem_length hk⟩⟩
  have hdecode : ∀ i ∈ e.instrs, (decode ∘ encode) i = i := fun i hi =>
    decodeEncodeRoundTrip i (wellFormed_of_mem_instrs hother hi)
  rw [FieldEvent.words, List.map_map, List.map_congr_left hdecode, List.map_id']

/-! ## DATA words chunk by chunk (R66) -/

theorem isMalformed_noIdDiag (s : State) : isMalformed (noIdDiag s) = !s.idSeen := by
  unfold noIdDiag
  cases s.idSeen <;> rfl

/-- What `words` DATA words leave that bring `bytes` between them: what one DATA leaves, with NO_ID counted per word. -/
def afterData (bytes : List Byte) (words : Nat) (s : State) : State :=
  { accepted (.data bytes) s with
    malformedCount := if s.idSeen = false then (s.malformedCount + words) % 2 ^ s.params.cntW else s.malformedCount }

theorem accepted_data_eq_afterData (bytes : List Byte) (s : State) : accepted (.data bytes) s = afterData bytes 1 s := by
  rw [afterData, accepted_data, isMalformed_noIdDiag]
  cases s.idSeen <;> rfl

theorem afterData_afterData (a b : List Byte) (m n : Nat) (s : State) :
    afterData b n (afterData a m s) = afterData (a ++ b) (m + n) s := by
  simp only [afterData, accepted_data, appendView_appendView, satAdd_satAdd, List.length_append, noIdDiag]
  cases s.idSeen <;> simp [Nat.add_assoc]

theorem afterData_phase (bytes : List Byte) (words : Nat) (s : State) : (afterData bytes words s).phase = s.phase := rfl

theorem execAll_cons {i : Instr} {s t : State} (h : exec i s = .next t) (rest : List Instr) :
    execAll (i :: rest) s = execAll rest t := by
  rw [execAll, h]

theorem execAll_data {chunks : List (List Byte)} {s : State} (hidle : s.phase = .idle) (hne : chunks ≠ []) :
    execAll (chunks.map Instr.data) s = .next (afterData chunks.flatten chunks.length s) := by
  induction chunks generalizing s with
  | nil => exact absurd rfl hne
  | cons chunk rest ih =>
    have hfirst : exec (.data chunk) s = .next (afterData chunk 1 s) := by
      rw [exec_of_idle hidle, accepted_data_eq_afterData]
    rw [List.map_cons, execAll_cons hfirst, List.flatten_cons, List.length_cons, Nat.add_comm]
    by_cases hrest : rest = []
    · subst hrest
      rw [List.flatten_nil, List.append_nil]
      rfl
    · rw [ih ((afterData_phase _ _ _).trans hidle) hrest, afterData_afterData]

/-- Settles O25: the counted state after each word is that after one DATA with the bytes so far. -/
theorem chunksEqualOneAppend : Obligations.ChunksEqualOneAppend := by
  intro bytes s hidle
  have hrun : execAll (FieldEvent.dataField bytes).instrs s = .next (afterData bytes (dataChunks bytes).length s) := by
    rw [FieldEvent.instrs, execAll_data hidle (dataChunks_ne_nil bytes), dataChunks_flatten]
  have hwords : (FieldEvent.dataField bytes).words.length = (dataChunks bytes).length := by
    simp [FieldEvent.words, FieldEvent.instrs]
  exact ⟨_, _, hrun, exec_of_idle hidle _, rfl, by rw [hwords]; rfl⟩

/-! ## Words written out, and the ports -/

/-- Settles O1, word by word. -/
theorem writtenOutWordsDecode : Obligations.WrittenOutWordsDecode := by
  refine ⟨?_, ?_, ?_, ?_, ?_, ?_, ?_, ?_, ?_, ?_, ?_⟩ <;> decide

/-- Settles O2: the fields' names stand for R63's bit ranges. -/
theorem decoderCaseTable : Obligations.DecoderCaseTable := fun _ => rfl

theorem outputs_evReady (s : State) (rst : Bool) :
    (outputs s rst).evReady = true ↔ s.phase = .idle ∧ rst = false := by
  simp [outputs, evReady]

/-- Settles O41, by the condition of the accept kind of step. -/
theorem eventTakenOnlyWhenReady : Obligations.EventTakenOnlyWhenReady := by
  refine ⟨fun s w => ?_, fun i s hsend => exec_of_send hsend i⟩
  rw [stepKind_accept, outputs_evReady]
  tauto

theorem stepKind_congr_of_send {s : State} {now other : Inputs} (hsend : s.phase = .send) (hrst : other.rst = now.rst)
    (hready : other.outReady = now.outReady) (hstatus : other.sinkStatus = now.sinkStatus) :
    stepKind s other = stepKind s now := by
  simp [stepKind, evReady, outValid, hsend, hrst, hready, hstatus]

theorem stepKind_congr_of_idle {s : State} {now other : Inputs} (hidle : s.phase = .idle) (hrst : other.rst = now.rst)
    (hvalid : other.evValid = now.evValid) (hword : other.evWord = now.evWord) :
    stepKind s other = stepKind s now := by
  simp [stepKind, evReady, outValid, hidle, hrst, hvalid, hword]

/-- The pins enter a step through its kind alone. -/
theorem step_congr_of_stepKind {s : State} {now other : Inputs} (later : List Inputs)
    (h : stepKind s other = stepKind s now) :
    step { s with inputs := other :: later } = step { s with inputs := now :: later } := by
  have hkind (pins : Inputs) : stepKind { s with inputs := pins :: later } pins = stepKind s pins := rfl
  rw [step_eq, step_eq, State.inputsNow_cons, State.inputsNow_cons, hkind, hkind, h, State.sampled_cons,
    State.sampled_cons]

/-- Settles O42: pins of the port that is not ready do not enter the step's kind. -/
theorem unreadyPortPinsHaveNoEffect : Obligations.UnreadyPortPinsHaveNoEffect := fun _ _ _ later hrst =>
  ⟨fun hsend hready hstatus => step_congr_of_stepKind later (stepKind_congr_of_send hsend hrst hready hstatus),
    fun hidle hvalid hword => step_congr_of_stepKind later (stepKind_congr_of_idle hidle hrst hvalid hword)⟩

end Sys2Proof.Machine

/-! PROOFS. The family of spec/40_reassembler.md: the exact next state each accepted event leaves (R69 to R80), the payload an ACK
finds after its IDENT (R91), and an ACK repeated (R79). -/

namespace Sys2Proof.Machine

/-! ## The identifier and its flags as shifts (R69, R70) -/

theorem extendedFlag_eq_shift (present : Bool) :
    (if present then extendedFlag else 0) = (BitVec.ofBool present).setWidth 32 <<< 31 := by
  cases present <;> decide

theorem remoteFlag_eq_shift (present : Bool) :
    (if present then remoteFlag else 0) = (BitVec.ofBool present).setWidth 32 <<< 30 := by
  cases present <;> decide

theorem identifierOperand_eq (mode : IdHighBits) (identifier : Word) :
    identifierOperand mode identifier = if mode = .keep then identifier else identifier &&& 0x3FFFFFFF := by
  cases mode <;> rfl

/-- Settles O8, by what an accepted IDENT leaves and the assembled identifier written with shifts. -/
theorem identStartsFrame : Obligations.IdentStartsFrame := by
  refine fun identifier isExtended isRemote s => ⟨wordKind_encode _, fun hidle => ?_⟩
  rw [exec_of_idle hidle, accepted_ident, assembleIdentifier, identifierOperand_eq, extendedFlag_eq_shift,
    remoteFlag_eq_shift]

/-- Settles O23: what an accepted IDENT leaves reads neither the payload nor its length. -/
theorem identForgetsPayload : Obligations.IdentForgetsPayload := by
  intro identifier isExtended isRemote s t payload payloadLen hidle hexec
  rw [exec_of_idle hidle] at hexec
  injection hexec with ht
  subst ht
  exact ⟨rfl, rfl, exec_of_idle (s := { s with payload := payload, payloadLen := payloadLen }) hidle _⟩

/-! ## The vector of each event, and whether it counts as malformed (R96, R97) -/

theorem noIdDiag_eq (s : State) : noIdDiag s = if s.idSeen = false then 0b00010 else 0 := by
  unfold noIdDiag
  cases s.idSeen <;> rfl

theorem isMalformed_or (d e : DiagVec) : isMalformed (d ||| e) = (isMalformed d || isMalformed e) := by
  rw [Bool.eq_iff_iff]
  simp [isMalformed, BitVec.extractLsb'_or, imp_iff_not_or]

theorem isMalformed_raiseIf (condition : Bool) (code : DiagVec) :
    isMalformed (raiseIf condition code) = (condition && isMalformed code) := by
  cases condition <;> simp [raiseIf, isMalformed]

theorem isMalformed_controlDiag (len : Byte) (s : State) :
    isMalformed (controlDiag len s) = (decide (8 < len.toNat) || !s.idSeen) := by
  have hbit : isMalformed diagLenRange = true := rfl
  rw [controlDiag, isMalformed_or, isMalformed_raiseIf, isMalformed_noIdDiag, hbit, Bool.and_true]

theorem isMalformed_dataRsvDiag (s : State) : isMalformed (dataRsvDiag s) = true := by
  have hbit : isMalformed diagBadCount = true := rfl
  rw [dataRsvDiag, isMalformed_or, hbit, Bool.true_or]

/-- OVERFLOW is no malformed event. -/
theorem isMalformed_ackDiag (s : State) : isMalformed (ackDiag s) = !s.idSeen := by
  have hbit : isMalformed diagOverflow = false := rfl
  rw [ackDiag, isMalformed_or, isMalformed_raiseIf, isMalformed_noIdDiag, hbit, Bool.and_false, Bool.or_false]

/-! ## Each event's exact next state (R71 to R80) -/

/-- Settles O9: one count for either of the two bits. -/
theorem controlStoresLength : Obligations.ControlStoresLength := by
  refine fun len s => ⟨wordKind_encode _, fun hidle => ?_⟩
  rw [exec_of_idle hidle, accepted_control, isMalformed_controlDiag, controlDiag, noIdDiag_eq]
  simp [raiseIf, diagLenRange, wrapAdd]

/-- Settles O10, per bound of the buffer and of the length's width. -/
theorem dataAppendsBytes : Obligations.DataAppendsBytes := by
  refine fun bytes s _ => ⟨wordKind_encode _, fun hidle => ?_⟩
  rw [exec_of_idle hidle, accepted_data, isMalformed_noIdDiag, noIdDiag_eq]
  cases s.params.payloadCap <;> cases s.params.lenW <;>
    simp [appendView, takeBound, satAdd, maxOfWidth, clip, wrapAdd]

/-- Settles O11: BAD_COUNT is set, so the event counts whether or not an IDENT came before. -/
theorem reservedCountAppendsNothing : Obligations.ReservedCountAppendsNothing := by
  refine fun count s _ => ⟨wordKind_encode _, wordCount_encode_dataRsv count, fun hidle => ?_⟩
  rw [exec_of_idle hidle, accepted_dataRsv, isMalformed_dataRsvDiag, if_pos rfl, dataRsvDiag, noIdDiag_eq]
  rfl

/-- Settles O12, by what an accepted CRC leaves. -/
theorem crcStoresValue : Obligations.CrcStoresValue := by
  refine fun crc s => ⟨wordKind_encode _, fun hidle => ?_⟩
  rw [exec_of_idle hidle, accepted_crc, isMalformed_noIdDiag, noIdDiag_eq]
  simp [wrapAdd]

/-- Settles O13: NO_ID and OVERFLOW each move their own counter. -/
theorem ackEmitsSnapshot : Obligations.AckEmitsSnapshot := by
  refine ⟨wordKind_encode _, fun s hidle => ?_⟩
  rw [exec_of_idle hidle, accepted_ack, isMalformed_ackDiag, ackDiag, noIdDiag_eq]
  simp [raiseIf, diagOverflow, wrapAdd, snapshot]

/-- Settles O14, by what an accepted event of an ignored kind leaves. -/
theorem ignoredKindChangesNothing : Obligations.IgnoredKindChangesNothing := by
  refine fun kind s _ => ⟨wordKind_encode _, fun hidle => ?_⟩
  rw [exec_of_idle hidle, accepted_ignored]

/-! ## An ACK repeated (R79) -/

theorem accepted_ack_outFrame (s : State) : (accepted .ack s).outFrame = snapshot s := rfl

theorem accepted_ack_outRec (s : State) : (accepted .ack s).outRec = encodeRecord (snapshot s) := rfl

/-- An ACK does not clear the accumulator. -/
theorem snapshot_accepted_ack (s : State) : snapshot (accepted .ack s) = snapshot s := rfl

theorem snapshot_complete (status : SinkStatus) (s : State) : snapshot (s.complete status) = snapshot s := rfl

/-- Settles O33: neither the first ACK nor the completion writes the accumulator, and two wrapping counts are one count by 2. -/
theorem secondAckRepeatsRecord : Obligations.SecondAckRepeatsRecord := by
  intro s status hidle
  have hsame : snapshot ((accepted .ack s).complete status) = snapshot s :=
    (snapshot_complete _ _).trans (snapshot_accepted_ack s)
  have hcount : ((accepted .ack s).complete status).framesEmitted = wrapAdd s.params.cntW s.framesEmitted 1 := rfl
  refine ⟨_, _, exec_of_idle hidle _, exec_of_idle (s := (accepted .ack s).complete status) rfl _, ?_, ?_, rfl, ?_⟩
  · rw [accepted_ack_outRec, accepted_ack_outRec, hsame]
  · rw [accepted_ack_outFrame, accepted_ack_outFrame, hsame]
  · rw [accepted_framesEmitted, if_pos rfl, hcount, State.complete_params, accepted_params, wrapAdd_one_twice]

/-! ## The payload an ACK finds (R73, R91) -/

theorem clip_of_withinBound {b : Bound} {n : Nat} (h : withinBound b n = true) : clip b n = n := by
  cases b with
  | inf => rfl
  | finite m => exact Nat.min_eq_left (of_decide_eq_true h)

theorem takeBound_of_withinBound {b : Bound} {bytes : List Byte} (h : withinBound b bytes.length = true) :
    takeBound b bytes = bytes := by
  cases b with
  | inf => rfl
  | finite m => exact List.take_of_length_le (of_decide_eq_true h)

/-- Legal parameters count every byte they store (R9). -/
theorem legalParams_counts_stored {p : Params} (legal : legalParams p = true) {n : Nat}
    (h : withinBound p.payloadCap n = true) : withinBound (maxOfWidth p.lenW) n = true := by
  cases hmax : maxOfWidth p.lenW with
  | inf => rfl
  | finite m =>
    rw [legalParams_clip_saturated legal hmax] at h
    have hclip : clip p.payloadCap m ≤ m := by cases p.payloadCap <;> simp [clip]
    exact decide_eq_true ((of_decide_eq_true h).trans hclip)

/-- In IDLE, the accumulator holds the identifier and the bytes gathered since its IDENT, as far as the buffer and the length
counter reach. -/
structure State.Gathered (p : Params) (identifier : Word) (bytes : List Byte) (s : State) : Prop where
  params : s.params = p
  phase : s.phase = .idle
  identifier : s.identifier = identifier
  payload : s.payload = takeBound p.payloadCap bytes
  payloadLen : s.payloadLen = clip (maxOfWidth p.lenW) bytes.length

theorem State.gathered_ident {s : State} (hidle : s.phase = .idle) (identifier : Word) (isExtended isRemote : Bool) :
    (accepted (.ident identifier isExtended isRemote) s).Gathered s.params
      (assembleIdentifier s.params.idHighBits identifier isExtended isRemote) [] where
  params := rfl
  phase := hidle
  identifier := rfl
  payload := (takeBound_of_withinBound (withinBound_zero _)).symm
  payloadLen := (clip_zero _).symm

theorem State.Gathered.append {p : Params} {identifier : Word} {bytes : List Byte} {s : State}
    (h : s.Gathered p identifier bytes) (more : List Byte) :
    (accepted (.data more) s).Gathered p identifier (bytes ++ more) where
  params := h.params
  phase := h.phase
  identifier := h.identifier
  payload := by simp [accepted, appendView, h.params, h.payload, takeBound_append]
  payloadLen := by simp [accepted, satAdd, h.params, h.payloadLen, clip_clip_add]

/-- Every event but IDENT and ACK gathers the bytes it brings, which only DATA does (R73, R75). -/
theorem State.Gathered.accepted {p : Params} {identifier : Word} {bytes : List Byte} {s : State}
    (h : s.Gathered p identifier bytes) {i : Instr} (hack : i ≠ .ack) (hident : ∀ a b c, i ≠ .ident a b c) :
    (accepted i s).Gathered p identifier (bytes ++ broughtBytes i) := by
  cases i with
  | ident a b c => exact absurd rfl (hident a b c)
  | ack => exact absurd rfl hack
  | data more => exact h.append more
  | control | dataRsv | crc | ignored =>
    rw [broughtBytes, List.append_nil]
    exact ⟨h.params, h.phase, h.identifier, h.payload, h.payloadLen⟩

theorem State.Gathered.execAll {p : Params} {identifier : Word} {bytes : List Byte} {is : List Instr} {s : State}
    (h : s.Gathered p identifier bytes) (hquiet : ∀ i ∈ is, i ≠ .ack ∧ ∀ a b c, i ≠ .ident a b c) (rest : List Instr) :
    ∃ t, execAll (is ++ rest) s = execAll rest t ∧
      t.Gathered p identifier (bytes ++ is.flatMap broughtBytes) := by
  induction is generalizing bytes s with
  | nil => exact ⟨s, rfl, by simpa using h⟩
  | cons i is ih =>
    obtain ⟨⟨hack, hident⟩, hrest⟩ := List.forall_mem_cons.mp hquiet
    obtain ⟨t, hrun, ht⟩ := ih (h.accepted hack hident) hrest
    refine ⟨t, (execAll_cons (exec_of_idle h.phase i) _).trans hrun, ?_⟩
    rwa [List.flatMap_cons, ← List.append_assoc]

/-- Settles O27: an IDENT gathers nothing, every event up to the ACK gathers its bytes, and the ACK latches the snapshot. -/
theorem framePayloadIsConcatenation : Obligations.FramePayloadIsConcatenation := by
  intro identifier isExtended isRemote between s legal hidle hquiet hfits
  obtain ⟨u, hrun, -, hphase, hidentifier, hpayload, hlen⟩ :=
    (State.gathered_ident hidle identifier isExtended isRemote).execAll hquiet [.ack]
  rw [List.nil_append] at hpayload hlen
  refine ⟨accepted .ack u, ?run, rfl, ?payload, ?len, rfl, rfl, hidentifier, rfl⟩
  case run =>
    rw [execAll_cons (exec_of_idle hidle _), hrun, execAll_cons (exec_of_idle hphase _), execAll]
  case payload => exact hpayload.trans (takeBound_of_withinBound hfits)
  case len => exact hlen.trans (clip_of_withinBound (legalParams_counts_stored legal hfits))

end Sys2Proof.Machine

/-! PROOFS. The family of spec/41_encoder_output.md: the record byte by byte (R82) and what it reads (R94), the sink that stalls
(R89), and the completion, whose status no later event sees (R87, R88). -/

namespace Sys2Proof.Machine

/-! ## The record's bytes (R82) -/

/-- The identifier stands lowest, so its bytes come first. -/
theorem recordByte_identifier (f : CanFrame) {k : Nat} (hk : k < 4) :
    recordByte (encodeRecord f) k = f.identifier.extractLsb' (8 * k) 8 :=
  BitVec.extractLsb'_append_eq_of_add_le (by omega)

theorem recordByte_length (f : CanFrame) : recordByte (encodeRecord f) 4 = BitVec.ofNat 8 (recordLength f) := by
  simp only [recordByte, encodeRecord, BitVec.extractLsb'_append_eq_of_le, BitVec.extractLsb'_append_eq_right,
    Nat.reduceMul, Nat.reduceSub, Nat.reduceLeDiff]

theorem recordByte_padding (f : CanFrame) {k : Nat} (hlow : 5 ≤ k) (hk : k < 8) : recordByte (encodeRecord f) k = 0x00 := by
  have hpad : recordByte (encodeRecord f) k = (0 : BitVec 24).extractLsb' (8 * k - 40) 8 := by
    rw [recordByte, encodeRecord, BitVec.extractLsb'_append_eq_of_le (by omega),
      BitVec.extractLsb'_append_eq_of_le (by omega), BitVec.extractLsb'_append_eq_of_add_le (by omega), Nat.sub_sub]
  rw [hpad]
  exact BitVec.extractLsb'_zero

/-- The payload bytes are packed as a DATA word's lanes are, above the header. -/
theorem encodeRecord_eq_packLanes (f : CanFrame) :
    encodeRecord f = packLanes ((List.range 8).map (recordPayloadByte f)) ++ (0 : BitVec 24) ++
      BitVec.ofNat 8 (recordLength f) ++ f.identifier := rfl

theorem recordByte_payload (f : CanFrame) {i : Nat} (hi : i < 8) :
    recordByte (encodeRecord f) (8 + i) = recordPayloadByte f i := by
  have hlane : recordByte (encodeRecord f) (8 + i) =
      (packLanes ((List.range 8).map (recordPayloadByte f))).extractLsb' (8 * i) 8 := by
    rw [recordByte, encodeRecord_eq_packLanes, BitVec.extractLsb'_append_eq_of_le (by omega),
      BitVec.extractLsb'_append_eq_of_le (by omega), BitVec.extractLsb'_append_eq_of_le (by omega)]
    congr 1; omega
  rw [hlane, packLanes_lane _ hi]
  simp [hi]

/-- A frame that holds the bytes its length counts reads no stale byte. -/
theorem recordPayloadByte_of_held {f : CanFrame} (hheld : recordLength f ≤ f.payload.length) (i : Nat) :
    recordPayloadByte f i = if i < recordLength f then f.payload.getD i 0x00 else 0x00 := by
  unfold recordPayloadByte
  split
  · next hi =>
    have hlen : i < f.payload.length := lt_of_lt_of_le hi hheld
    rw [List.getD_eq_getElem _ _ hlen, List.getD_eq_getElem _ _ hlen]
  · rfl

/-- Settles O28: each byte lies within one field of the record. -/
theorem recordLayout : Obligations.RecordLayout := by
  intro f hheld
  refine ⟨recordByte_identifier f (by decide), recordByte_identifier f (by decide), recordByte_identifier f (by decide),
    recordByte_identifier f (by decide), recordByte_length f, recordByte_padding f (by decide) (by decide),
    recordByte_padding f (by decide) (by decide), recordByte_padding f (by decide) (by decide), fun i hi => ?_⟩
  rw [recordByte_payload f hi]
  exact recordPayloadByte_of_held hheld i

/-- The sixteen bytes, byte 0 first. -/
theorem recordBytes_encodeRecord (f : CanFrame) :
    (List.range 16).map (recordByte (encodeRecord f)) =
      (List.range 4).map (fun k => f.identifier.extractLsb' (8 * k) 8) ++
      [BitVec.ofNat 8 (recordLength f), 0x00, 0x00, 0x00] ++ (List.range 8).map (recordPayloadByte f) := by
  have hsplit : List.range 16 = List.range 4 ++ [4, 5, 6, 7] ++ (List.range 8).map (8 + ·) := rfl
  have hidentifier : (List.range 4).map (recordByte (encodeRecord f)) =
      (List.range 4).map (fun k => f.identifier.extractLsb' (8 * k) 8) :=
    List.map_congr_left fun k hk => recordByte_identifier f (List.mem_range.mp hk)
  have hpayload : (List.range 8).map (recordByte (encodeRecord f) ∘ (8 + ·)) = (List.range 8).map (recordPayloadByte f) :=
    List.map_congr_left fun i hi => recordByte_payload f (List.mem_range.mp hi)
  rw [hsplit, List.map_append, List.map_append, List.map_map, hidentifier, hpayload]
  simp [recordByte_length, recordByte_padding]

/-- The encoder reads neither the declared length nor the CRC (R84). -/
theorem encodeRecord_unread (identifier crc : Word) (declaredLength : Byte) (payloadLen : Nat) (payload : List Byte) :
    encodeRecord ⟨identifier, declaredLength, crc, payloadLen, payload⟩ =
      encodeRecord ⟨identifier, 0, 0, payloadLen, payload⟩ := rfl

/-- Settles O29: without the fields the encoder does not read, the four frames are closed. -/
theorem workedRecords : Obligations.WorkedRecords := by
  refine ⟨fun _ _ => ?_, fun _ _ => ?_, fun _ _ => ?_, fun _ _ => ?_⟩ <;>
    (rw [encodeRecord_unread, recordBytes_encodeRecord]; decide)

/-- Settles O30: the bytes below the length are those the equal takes hold. -/
theorem recordReadsOnlyItsFields : Obligations.RecordReadsOnlyItsFields := by
  intro f g hid hlen htake
  refine encodeRecord_congr hid hlen fun i hi => ?_
  calc f.payload[i]? = (f.payload.take (recordLength f))[i]? := (List.getElem?_take_of_lt (lt_of_lt_of_eq hi hlen.symm)).symm
    _ = (g.payload.take (recordLength g))[i]? := congrArg (·[i]?) htake
    _ = g.payload[i]? := List.getElem?_take_of_lt hi

/-! ## The sink stalls (R89) -/

/-- One stalled step takes its input values and drives no diagnostic. -/
theorem step_of_stalled {s : State} {now : Inputs} {later : List Inputs} (hsend : s.phase = .send)
    (hinputs : s.inputs = now :: later) (hrst : now.rst = false) (hready : now.outReady = false) :
    step s = .next { s with inputs := later, diag := 0 } := by
  rw [← State.inputsNow_of_inputs hinputs] at hrst hready
  obtain ⟨-, hstep⟩ := waitingKeepsState s hrst (.inr ⟨hsend, hready⟩)
  rw [hstep, State.sampled_of_inputs hinputs]

/-- Settles O43, by induction on the stalled steps, each of which leaves SEND with its latch. -/
theorem sinkMayStallForEver : Obligations.SinkMayStallForEver := by
  intro stall later s hsend hinputs hstall
  induction stall generalizing s with
  | nil => rw [if_pos rfl, ← List.nil_append later, ← hinputs]; rfl
  | cons now stall ih =>
    obtain ⟨⟨hrst, hready⟩, hrest⟩ := List.forall_mem_cons.mp hstall
    have hstep : step s = .next { s with inputs := stall ++ later, diag := 0 } :=
      step_of_stalled hsend hinputs hrst hready
    refine (run_succ_eq hstep).trans ((ih { s with inputs := stall ++ later, diag := 0 } hsend rfl hrest).trans ?_)
    rw [ite_self, if_neg (List.cons_ne_nil now stall)]

/-! ## Completion (R87, R88, R100) -/

theorem completeDiag_eq (status : SinkStatus) : completeDiag status = if status = .err then 0b10000 else 0b00000 := by
  cases status <;> rfl

/-- Settles O44: with the sink ready the step is a completion of the sampled state. -/
theorem completionReleasesLatch : Obligations.CompletionReleasesLatch := by
  intro s hsend hrst hready
  have hkind : stepKind s s.inputsNow = .complete s.inputsNow.sinkStatus :=
    stepKind_complete.mpr ⟨hrst, hsend, hready, rfl⟩
  refine ⟨hkind, ?_⟩
  rw [step_eq, hkind, stepped, State.complete_eq, completeDiag_eq]
  simp only [State.sampled_txErrCount, State.sampled_params, wrapAdd]

/-- The state with another `tx_err_count`. -/
def State.withTxErrCount (n : Nat) (s : State) : State := { s with txErrCount := n }

/-- A completion with ERR leaves what one with OK leaves, but for the vector and `tx_err_count`. -/
theorem State.complete_err (s : State) :
    s.complete .err = { (s.complete .ok).withTxErrCount (wrapAdd s.params.cntW s.txErrCount 1) with diag := diagTxErr } :=
  rfl

/-- An event drives its own vector, whatever the step before drove. -/
theorem accepted_of_diag (i : Instr) (d : DiagVec) (s : State) : accepted i { s with diag := d } = accepted i s := by
  cases i <;> rfl

/-- Without TX_ERR the end of a step leaves `tx_err_count`, and it reads the count for nothing else (R97). -/
theorem State.endOfStep_withTxErrCount {d : DiagVec} (h : isTxErr d = false) (n : Nat) (s : State) :
    (s.withTxErrCount n).endOfStep d = (s.endOfStep d).withTxErrCount n := by
  simp [State.endOfStep, State.withTxErrCount, h]

/-- No event raises TX_ERR. -/
theorem accepted_withTxErrCount (i : Instr) (n : Nat) (s : State) :
    accepted i (s.withTxErrCount n) = (accepted i s).withTxErrCount n := by
  cases i with
  | ident => rfl
  | control len => exact State.endOfStep_withTxErrCount (isTxErr_controlDiag len s) n (s.setDeclaredLength len)
  | data bytes => exact State.endOfStep_withTxErrCount (isTxErr_noIdDiag s) n (s.appendBytes bytes)
  | dataRsv => exact State.endOfStep_withTxErrCount (isTxErr_dataRsvDiag s) n s
  | crc crc => exact State.endOfStep_withTxErrCount (isTxErr_noIdDiag s) n (s.setCrc crc)
  | ack => exact State.endOfStep_withTxErrCount (isTxErr_ackDiag s) n (s.countFrame.emit (snapshot s))
  | ignored => rfl

/-- Presenting an event answers a next state, in which only `tx_err_count` comes from `tx_err_count`. -/
theorem exec_withTxErrCount (i : Instr) (n : Nat) (s : State) :
    ∃ t, exec i s = .next t ∧ exec i (s.withTxErrCount n) = .next (t.withTxErrCount n) := by
  cases hp : s.phase with
  | idle =>
    refine ⟨_, exec_of_idle hp i, ?_⟩
    rw [exec_of_idle (s := s.withTxErrCount n) hp, accepted_withTxErrCount]
  | send => exact ⟨_, exec_of_send hp i, exec_of_send (s := s.withTxErrCount n) hp i⟩

theorem execAll_withTxErrCount (is : List Instr) (n : Nat) (s : State) :
    ∃ t, execAll is s = .next t ∧ execAll is (s.withTxErrCount n) = .next (t.withTxErrCount n) := by
  induction is generalizing s with
  | nil => exact ⟨s, rfl, rfl⟩
  | cons i is ih =>
    obtain ⟨t, hexec, hexec'⟩ := exec_withTxErrCount i n s
    obtain ⟨u, hrest, hrest'⟩ := ih t
    exact ⟨u, (execAll_cons hexec is).trans hrest, (execAll_cons hexec' is).trans hrest'⟩

/-- Settles O45: the first event replaces the vector, and no event brings `tx_err_count` into another field. -/
theorem sinkErrorChangesNothingLater : Obligations.SinkErrorChangesNothingLater := by
  intro s i is
  obtain ⟨t, hok, herr⟩ := execAll_withTxErrCount is (wrapAdd s.params.cntW s.txErrCount 1) (accepted i (s.complete .ok))
  refine ⟨t, _, (execAll_cons (exec_of_idle rfl i) is).trans hok, ?_, rfl⟩
  rw [execAll_cons (exec_of_idle rfl i), State.complete_err, accepted_of_diag, accepted_withTxErrCount]
  exact herr

end Sys2Proof.Machine

/-! PROOFS. The family of spec/60_exceptions.md: the condition of each diagnostic bit (R96), the counters at the end of a step
(R97), the vectors a step can drive (R102), an ACK with more than 8 payload bytes (R99) and that no step stops the block (R95). -/

namespace Sys2Proof.Machine

/-! ## The five codes, bit by bit (R96) -/

theorem getLsbD_diagLenRange {k : Nat} (hk : k < 5) : diagLenRange.getLsbD k = decide (k = 0) := by revert k; decide
theorem getLsbD_diagNoId {k : Nat} (hk : k < 5) : diagNoId.getLsbD k = decide (k = 1) := by revert k; decide
theorem getLsbD_diagBadCount {k : Nat} (hk : k < 5) : diagBadCount.getLsbD k = decide (k = 2) := by revert k; decide
theorem getLsbD_diagOverflow {k : Nat} (hk : k < 5) : diagOverflow.getLsbD k = decide (k = 3) := by revert k; decide
theorem getLsbD_diagTxErr {k : Nat} (hk : k < 5) : diagTxErr.getLsbD k = decide (k = 4) := by revert k; decide

theorem getLsbD_noIdDiag (s : State) {k : Nat} (hk : k < 5) : (noIdDiag s).getLsbD k = (!s.idSeen && decide (k = 1)) := by
  rw [noIdDiag, getLsbD_raiseIf, getLsbD_diagNoId hk]

theorem getLsbD_controlDiag (len : Byte) (s : State) {k : Nat} (hk : k < 5) :
    (controlDiag len s).getLsbD k = (decide (8 < len.toNat) && decide (k = 0) || !s.idSeen && decide (k = 1)) := by
  rw [controlDiag, BitVec.getLsbD_or, getLsbD_raiseIf, getLsbD_diagLenRange hk, getLsbD_noIdDiag s hk]

theorem getLsbD_dataRsvDiag (s : State) {k : Nat} (hk : k < 5) :
    (dataRsvDiag s).getLsbD k = (decide (k = 2) || !s.idSeen && decide (k = 1)) := by
  rw [dataRsvDiag, BitVec.getLsbD_or, getLsbD_diagBadCount hk, getLsbD_noIdDiag s hk]

theorem getLsbD_ackDiag (s : State) {k : Nat} (hk : k < 5) :
    (ackDiag s).getLsbD k = (!s.idSeen && decide (k = 1) || decide (8 < s.payloadLen) && decide (k = 3)) := by
  rw [ackDiag, BitVec.getLsbD_or, getLsbD_raiseIf, getLsbD_diagOverflow hk, getLsbD_noIdDiag s hk]

theorem getLsbD_completeDiag (status : SinkStatus) {k : Nat} (hk : k < 5) :
    (completeDiag status).getLsbD k = (decide (status = .err) && decide (k = 4)) := by
  rw [completeDiag, getLsbD_raiseIf, getLsbD_diagTxErr hk]

/-! ## The vector an event drives, and its bits (R96, R98) -/

/-- The vector an accepted event drives. -/
def eventDiag (i : Instr) (s : State) : DiagVec :=
  match i with
  | .ident _ _ _ => 0
  | .control len => controlDiag len s
  | .data _ => noIdDiag s
  | .dataRsv _ => dataRsvDiag s
  | .crc _ => noIdDiag s
  | .ack => ackDiag s
  | .ignored _ => 0

@[simp] theorem accepted_diag (i : Instr) (s : State) : (accepted i s).diag = eventDiag i s := by
  cases i <;> rfl

/-- Each bit of the vector has its condition on the event and the state; bit 4 has none (R96). -/
theorem getLsbD_eventDiag (i : Instr) (s : State) {k : Nat} (hk : k < 5) :
    (eventDiag i s).getLsbD k = true ↔
      k = 0 ∧ (∃ len, i = .control len ∧ 8 < len.toNat) ∨
      k = 1 ∧ s.idSeen = false ∧ (∀ a b c, i ≠ .ident a b c) ∧ (∀ kind, i ≠ .ignored kind) ∨
      k = 2 ∧ (∃ count, i = .dataRsv count) ∨
      k = 3 ∧ i = .ack ∧ 8 < s.payloadLen := by
  cases i with
  | ident | ignored => simp [eventDiag]
  | control len => simp [eventDiag, getLsbD_controlDiag len s hk, and_comm]
  | data | crc => simp [eventDiag, getLsbD_noIdDiag s hk, and_comm]
  | dataRsv => simp [eventDiag, getLsbD_dataRsvDiag s hk, and_comm, or_comm]
  | ack => simp [eventDiag, getLsbD_ackDiag s hk, and_comm]

/-! ## The vector a step drives (R96) -/

/-- The vector a step of the kind drives. -/
def stepDiag (kind : StepKind) (s : State) : DiagVec :=
  match kind with
  | .accept w => eventDiag (decode w) s
  | .complete status => completeDiag status
  | .reset => 0
  | .idle => 0

theorem stepped_diag (kind : StepKind) (s : State) : (stepped kind s).diag = stepDiag kind s := by
  cases kind with
  | accept w => exact accepted_diag (decode w) s
  | _ => rfl

theorem eventDiag_sampled (i : Instr) (s : State) : eventDiag i s.sampled = eventDiag i s := by
  cases i <;> simp [eventDiag, controlDiag, dataRsvDiag, ackDiag, noIdDiag]

theorem stepDiag_sampled (kind : StepKind) (s : State) : stepDiag kind s.sampled = stepDiag kind s := by
  cases kind with
  | accept w => exact eventDiag_sampled (decode w) s
  | _ => rfl

theorem step_diag {s t : State} (hstep : step s = .next t) : t.diag = stepDiag (stepKind s s.inputsNow) s := by
  rw [eq_stepped hstep, stepped_diag, stepDiag_sampled]

/-- Bits 3 to 0 are set by accepted events only, and bit 4 by completions only. -/
theorem getLsbD_stepDiag (kind : StepKind) (s : State) {k : Nat} (hk : k < 5) :
    (stepDiag kind s).getLsbD k = true ↔
      (∃ w, kind = .accept w ∧ (eventDiag (decode w) s).getLsbD k = true) ∨ (k = 4 ∧ kind = .complete .err) := by
  cases kind with
  | accept w => simp [stepDiag]
  | complete status => simp [stepDiag, getLsbD_completeDiag status hk, and_comm]
  | reset | idle => simp [stepDiag]

/-- Settles O34: bits 3 to 0 are an accepted event's, each with its event's condition, and bit 4 is a completion's. -/
theorem diagnosticConditions : Obligations.DiagnosticConditions := by
  intro s t hstep
  rw [step_diag hstep]
  simp only [getLsbD_stepDiag, getLsbD_eventDiag, Nat.reduceLT]
  refine ⟨?lenRange, ?noId, ?badCount, ?overflow, ?txErr⟩
  case noId => simp [and_left_comm]
  all_goals simp

/-! ## The vectors a step can drive (R102) -/

/-- The nine vectors: none, each bit alone, and NO_ID with LEN_RANGE, BAD_COUNT or OVERFLOW. -/
def drivenVectors : List DiagVec :=
  [0b00000, 0b00001, 0b00010, 0b00011, 0b00100, 0b00110, 0b01000, 0b01010, 0b10000]

theorem noIdDiag_mem (s : State) : noIdDiag s ∈ drivenVectors :=
  (by decide : ∀ noId, raiseIf noId diagNoId ∈ drivenVectors) _

theorem controlDiag_mem (len : Byte) (s : State) : controlDiag len s ∈ drivenVectors :=
  (by decide : ∀ lenRange noId, raiseIf lenRange diagLenRange ||| raiseIf noId diagNoId ∈ drivenVectors) _ _

theorem dataRsvDiag_mem (s : State) : dataRsvDiag s ∈ drivenVectors :=
  (by decide : ∀ noId, diagBadCount ||| raiseIf noId diagNoId ∈ drivenVectors) _

theorem ackDiag_mem (s : State) : ackDiag s ∈ drivenVectors :=
  (by decide : ∀ noId overflow, raiseIf noId diagNoId ||| raiseIf overflow diagOverflow ∈ drivenVectors) _ _

theorem completeDiag_mem (status : SinkStatus) : completeDiag status ∈ drivenVectors :=
  (by decide : ∀ txErr, raiseIf txErr diagTxErr ∈ drivenVectors) _

theorem zero_mem_drivenVectors : (0 : DiagVec) ∈ drivenVectors := List.mem_cons_self

theorem eventDiag_mem (i : Instr) (s : State) : eventDiag i s ∈ drivenVectors := by
  cases i with
  | control len => exact controlDiag_mem len s
  | data | crc => exact noIdDiag_mem s
  | dataRsv => exact dataRsvDiag_mem s
  | ack => exact ackDiag_mem s
  | ident | ignored => exact zero_mem_drivenVectors

theorem stepDiag_mem (kind : StepKind) (s : State) : stepDiag kind s ∈ drivenVectors := by
  cases kind with
  | accept w => exact eventDiag_mem (decode w) s
  | complete status => exact completeDiag_mem status
  | reset | idle => exact zero_mem_drivenVectors

/-- A state that DATA words leave after reset with no IDENT before them: nine bytes counted, eight kept. -/
def unidentified : State := { State.reset with payload := [1, 2, 3, 4, 5, 6, 7, 8], payloadLen := 9 }

/-- Settles O36: the vectors kind by kind; without an IDENT, a CONTROL of length 9, a DATA of reserved count 9 and an ACK of nine
bytes drive the three combinations. -/
theorem diagnosticCombinations : Obligations.DiagnosticCombinations := by
  refine ⟨fun s t hstep => step_diag hstep ▸ stepDiag_mem _ _, ?lenRange, ?badCount, ?overflow⟩
  case lenRange => exact ⟨State.reset.withFetchWord 80 0x902, _, step_eq _, by decide⟩
  case badCount => exact ⟨State.reset.withFetchWord 80 0x903, _, step_eq _, by decide⟩
  case overflow => exact ⟨unidentified.withFetchWord 80 0x5, _, step_eq _, by decide⟩

/-! ## The diagnostic counters (R97) -/

/-- The end of a step in R97's own terms. -/
theorem State.endOfStep_eq (d : DiagVec) (s : State) : s.endOfStep d = { s with
    diag := d
    malformedCount := if d.extractLsb' 0 3 ≠ 0 then (s.malformedCount + 1) % 2 ^ s.params.cntW else s.malformedCount
    overflowCount := if d.getLsbD 3 then (s.overflowCount + 1) % 2 ^ s.params.cntW else s.overflowCount
    txErrCount := if d.getLsbD 4 then (s.txErrCount + 1) % 2 ^ s.params.cntW else s.txErrCount } := by
  simp only [State.endOfStep, isMalformed, isOverflow, isTxErr, wrapAdd, bne_iff_ne]
  rfl

/-- The diagnostic counters of `t` are those of `s` with the vector of `t` counted. -/
structure State.CountsInto (s t : State) : Prop where
  malformed : t.malformedCount = (s.endOfStep t.diag).malformedCount
  overflow : t.overflowCount = (s.endOfStep t.diag).overflowCount
  txErr : t.txErrCount = (s.endOfStep t.diag).txErrCount

theorem accepted_countsInto (i : Instr) (s : State) : s.CountsInto (accepted i s) := by
  cases i <;> exact ⟨rfl, rfl, rfl⟩

/-- A step of any kind but Reset counts its own vector, once. -/
theorem stepped_countsInto {kind : StepKind} (hkind : kind ≠ .reset) (s : State) : s.CountsInto (stepped kind s) := by
  cases kind with
  | accept w => exact accepted_countsInto (decode w) s
  | reset => exact absurd rfl hkind
  | complete | idle => exact ⟨rfl, rfl, rfl⟩

/-- Settles O35: every kind of step but Reset counts its own vector, and the end of a step as R97 writes it. -/
theorem countersFollowDiagnostics : Obligations.CountersFollowDiagnostics := by
  refine ⟨fun s t hstep hkind => ?_, State.endOfStep_eq⟩
  have hcounts : s.sampled.CountsInto t := eq_stepped hstep ▸ stepped_countsInto hkind s.sampled
  rw [hcounts.malformed, hcounts.overflow, hcounts.txErr, State.endOfStep_eq]
  simp only [State.sampled_malformedCount, State.sampled_overflowCount, State.sampled_txErrCount, State.sampled_params,
    and_self]

/-! ## An ACK with more than 8 payload bytes (R99) -/

/-- The record's payload bytes below the length are those the frame holds. -/
theorem recordPayloadByte_getElem? {f : CanFrame} {i : Nat} (hi : i < recordLength f) (hheld : i < f.payload.length) :
    f.payload[i]? = some (recordPayloadByte f i) := by
  rw [recordPayloadByte, if_pos hi, List.getD_eq_getElem _ _ hheld, List.getElem?_eq_getElem hheld]

/-- A state that meets the invariant holds the bytes its record carries (R34(a), R83). -/
theorem State.Inv.recordLength_le {s : State} (h : s.Inv) : recordLength (snapshot s) ≤ s.payload.length := by
  have hmin : recordLength (snapshot s) = min s.payload.length 8 := by
    rw [h.payload_length, min_clip_of_withinBound (legalParams_eight h.1).1]
    rfl
  exact hmin ▸ Nat.min_le_left _ _

theorem accepted_ack_reports_overflow {s : State} (hover : 8 < s.payloadLen) : (accepted .ack s).diag.getLsbD 3 = true :=
  (isOverflow_ackDiag s).trans (decide_eq_true hover)

/-- Settles O32: the record carries 8 of the bytes counted, and neither the ACK nor the completion changes the count. -/
theorem overflowTruncatesAndReports : Obligations.OverflowTruncatesAndReports := by
  intro s hinv hidle hover
  have hlength : recordLength (snapshot s) = 8 := Nat.min_eq_right hover.le
  refine ⟨_, exec_of_idle hidle _, rfl, accepted_ack_reports_overflow hover, ?count, rfl, ?length, fun i hi => ?payload,
    fun status => ⟨_, exec_of_idle rfl _, accepted_ack_reports_overflow hover⟩⟩
  case count => simp only [accepted_ack, if_pos hover, wrapAdd]
  case length => rw [accepted_ack_outRec, recordByte_length, hlength, BitVec.ofNat_eq_ofNat]
  case payload =>
    have hrecord : i < recordLength (snapshot s) := hlength ▸ hi
    rw [accepted_ack_outRec, recordByte_payload _ hi]
    exact recordPayloadByte_getElem? hrecord (hrecord.trans_le hinv.recordLength_le)

/-! ## No step stops the block (R95) -/

/-- Settles O40: each of the four kinds of step leaves a state. -/
theorem everyStepCompletes : Obligations.EveryStepCompletes := fun s => ⟨_, step_eq s⟩

end Sys2Proof.Machine

/-! PROOFS. The family of spec/70_reset_and_hazards.md: a frame's n + 5 cycles (R122, R123), what a Reset step clears (R111) and
what it beats (R112). -/

namespace Sys2Proof.Machine

/-! ## A presented event, one cycle each (R122) -/

/-- In IDLE, with the parameters, the count of frames and the inputs to come. -/
structure State.Ready (p : Params) (frames : Nat) (inputs : List Inputs) (s : State) : Prop where
  params : s.params = p
  phase : s.phase = .idle
  framesEmitted : s.framesEmitted = frames
  inputs : s.inputs = inputs

section
variable {p : Params} {frames : Nat} {later : List Inputs} {i : Instr} {s : State}

theorem State.Ready.stepKind_presented (h : s.Ready p frames (presentWord (encode i) :: later)) :
    stepKind s s.inputsNow = .accept (encode i) := by
  rw [State.inputsNow_of_inputs h.inputs]
  exact stepKind_accept.mpr ⟨rfl, h.phase, rfl, rfl⟩

theorem State.Ready.step_presented (h : s.Ready p frames (presentWord (encode i) :: later)) (hwf : i.WellFormed) :
    step s = .next (accepted i s.sampled) := by
  rw [step_eq, h.stepKind_presented, stepped, decodeEncodeRoundTrip i hwf]

theorem State.Ready.sentRecord_presented (h : s.Ready p frames (presentWord (encode i) :: later)) : sentRecord s = [] :=
  sentRecord_of_not_complete (by simp [h.stepKind_presented])

theorem State.Ready.sampled {now : Inputs} (h : s.Ready p frames (now :: later)) : s.sampled.Ready p frames later := by
  rw [State.sampled_of_inputs h.inputs]
  exact ⟨h.params, h.phase, h.framesEmitted, rfl⟩

/-- Every event but ACK leaves the block in IDLE, with as many frames counted. -/
theorem State.Ready.afterEvent (h : s.Ready p frames later) (hack : i ≠ .ack) : (accepted i s).Ready p frames later where
  params := (accepted_params i s).trans h.params
  phase := by rw [accepted_phase, if_neg hack, h.phase]
  framesEmitted := by rw [accepted_framesEmitted, if_neg hack, h.framesEmitted]
  inputs := (accepted_inputs i s).trans h.inputs

/-- Presented events without an ACK take one step each and send the sink nothing. -/
theorem State.Ready.run {is : List Instr} (h : s.Ready p frames (is.map (fun i => presentWord (encode i)) ++ later))
    (hevents : ∀ i ∈ is, i.WellFormed ∧ i ≠ .ack) (n : Nat) :
    ∃ t, t.Ready p frames later ∧
      Host.Core.run Sys2Proof.core (is.length + n) s = Host.Core.run Sys2Proof.core n t ∧
      (observe (is.length + n) s).transfers.map Transfer.record = (observe n t).transfers.map Transfer.record := by
  induction is generalizing s with
  | nil => exact ⟨s, h, by simp, by simp⟩
  | cons i is ih =>
    obtain ⟨⟨hwf, hack⟩, hrest⟩ := List.forall_mem_cons.mp hevents
    have hstep : step s = .next (accepted i s.sampled) := h.step_presented hwf
    obtain ⟨t, ht, hrun, hsent⟩ := ih (h.sampled.afterEvent hack) hrest
    refine ⟨t, ht, ?_, ?_⟩
    · rw [List.length_cons, Nat.succ_add, run_succ_eq hstep, hrun]
    · rw [List.length_cons, Nat.succ_add, observe_succ_records hstep, h.sentRecord_presented, List.nil_append, hsent]

end

/-! ## An ACK and the completion in the cycle after (R123) -/

/-- The two steps count the frame and transfer its record, and leave the block in IDLE. -/
theorem State.Ready.ack_complete {p : Params} {frames : Nat} {now : Inputs} {later : List Inputs} {s : State}
    (h : s.Ready p frames (presentWord (encode .ack) :: now :: later)) (hrst : now.rst = false)
    (hready : now.outReady = true) :
    ∃ t, Host.Core.run Sys2Proof.core 2 s = .next t ∧ t.Ready p (wrapAdd p.cntW frames 1) later ∧
      (observe 2 s).transfers.map Transfer.record = [encodeRecord (snapshot s.sampled)] := by
  have hack : step s = .next (accepted .ack s.sampled) := h.step_presented rfl
  have hinputs : (accepted .ack s.sampled).inputs = now :: later := h.sampled.inputs
  have hkind : stepKind (accepted .ack s.sampled) (accepted .ack s.sampled).inputsNow =
      .complete now.sinkStatus := by
    rw [State.inputsNow_of_inputs hinputs]
    exact stepKind_complete.mpr ⟨hrst, rfl, hready, rfl⟩
  have hcomplete : step (accepted .ack s.sampled) =
      .next (State.complete now.sinkStatus { accepted .ack s.sampled with inputs := later }) := by
    rw [step_eq, hkind, stepped, State.sampled_of_inputs hinputs]
  have hframes : (accepted .ack s.sampled).framesEmitted = wrapAdd p.cntW frames 1 := by
    rw [accepted_framesEmitted, if_pos rfl, h.sampled.params, h.sampled.framesEmitted]
  refine ⟨_, (run_succ_eq hack).trans (run_succ_eq hcomplete), ⟨h.sampled.params, rfl, hframes, rfl⟩, ?_⟩
  rw [observe_succ_records hack, h.sentRecord_presented, observe_succ_records hcomplete, sentRecord_of_complete hkind,
    accepted_ack_outRec]
  rfl

/-! ## The whole frame (R122, R123) -/

/-- The events of a frame before its ACK. -/
def frameBeforeAck (identifier crc : Word) (isExtended isRemote : Bool) (len : Byte) (chunks : List (List Byte)) :
    List Instr :=
  [.ident identifier isExtended isRemote, .control len] ++ chunks.map Instr.data ++ [.crc crc]

section
variable {identifier crc : Word} {isExtended isRemote : Bool} {len : Byte} {chunks : List (List Byte)}

theorem length_frameBeforeAck :
    (frameBeforeAck identifier crc isExtended isRemote len chunks).length = chunks.length + 3 := by
  simp [frameBeforeAck]

theorem frameBeforeAck_events (hchunks : ∀ c ∈ chunks, c.length ≤ 8) :
    ∀ i ∈ frameBeforeAck identifier crc isExtended isRemote len chunks, i.WellFormed ∧ i ≠ .ack := by
  intro i hi
  simp only [frameBeforeAck, List.mem_append, List.mem_cons, List.mem_map, List.not_mem_nil, or_false] at hi
  obtain ((rfl | rfl) | ⟨c, hc, rfl⟩) | rfl := hi
  · exact ⟨rfl, nofun⟩
  · exact ⟨rfl, nofun⟩
  · exact ⟨decide_eq_true (hchunks c hc), nofun⟩
  · exact ⟨rfl, nofun⟩

/-- The words of the whole frame, and what is listed after them: those before the ACK, then the ACK's. -/
theorem presented_frame (rest : List Inputs) :
    ([Instr.ident identifier isExtended isRemote, Instr.control len] ++ chunks.map Instr.data ++
        [Instr.crc crc, Instr.ack]).map (fun i => presentWord (encode i)) ++ rest =
      (frameBeforeAck identifier crc isExtended isRemote len chunks).map (fun i => presentWord (encode i)) ++
        presentWord (encode .ack) :: rest := by
  simp [frameBeforeAck]

end

/-- Settles O52: the n + 3 events before the ACK take a step each and send nothing, and the ACK and the completion take two. -/
theorem frameTakesNPlusFiveCycles : Obligations.FrameTakesNPlusFiveCycles := by
  intro identifier crc isExtended isRemote len chunks later s hidle hchunks hinputs
  have hready : s.Ready s.params s.framesEmitted _ := ⟨rfl, hidle, rfl, hinputs.trans (presented_frame _)⟩
  obtain ⟨u, hu, hrun, hsent⟩ := hready.run (frameBeforeAck_events hchunks) 2
  obtain ⟨t, hlast, ht, hrecord⟩ := hu.ack_complete rfl rfl
  rw [length_frameBeforeAck] at hrun hsent
  refine ⟨t, hrun.trans hlast, ht.phase, ht.inputs, ht.framesEmitted, ?_⟩
  calc (observe (chunks.length + 5) s).transfers.length
      = ((observe (chunks.length + 5) s).transfers.map Transfer.record).length := (List.length_map _).symm
    _ = [encodeRecord (snapshot u.sampled)].length := congrArg List.length (hsent.trans hrecord)

/-! ## Reset (R111, R112) -/

theorem step_of_reset {s : State} (h : s.inputsNow.rst = true) : step s = .next s.sampled.toReset := by
  rw [step_eq, stepKind_reset.mpr h, stepped]

/-- Settles O46: the step is the Reset kind, and neither port is open while `rst` is high. -/
theorem resetStepClears : Obligations.ResetStepClears := by
  intro s hrst
  have hready : evReady s true = false := Bool.and_false _
  have hvalid : outValid s true = false := Bool.and_false _
  exact ⟨hready, hvalid, s.sampled.toReset, step_of_reset hrst, rfl, rfl, rfl, rfl, rfl, rfl, rfl, rfl, rfl, rfl, rfl, rfl⟩

/-- Settles O47: with `rst` high the kind of step is Reset, and the pins enter a step through its kind alone. -/
theorem resetBeatsHandshakes : Obligations.ResetBeatsHandshakes := by
  refine ⟨fun s hrst => ?_, fun s now other later hnow hother => step_congr_of_stepKind later ?_⟩
  · have hkind : stepKind s s.inputsNow = .reset := stepKind_reset.mpr hrst
    exact ⟨hkind, by rw [transferOf, hkind]⟩
  · rw [stepKind_reset.mpr hnow, stepKind_reset.mpr hother]

end Sys2Proof.Machine
